-- ==== Sys2Proof/Word.lean ====
section
/-! DEFINITION. The words of the LJ-640's link: bytes, four-byte slots and 16-bit pixels (11 R181, 06 section 6.1). -/

namespace Sys2Proof

/-- One byte of a link frame (11 R182). -/
abbrev Byte := BitVec 8

/-- One four-byte slot of a payload (11 R181). -/
abbrev Slot := BitVec 32

/-- One pixel of an imager line, 0 to 65,535 (06 section 6.1). -/
abbrev Pixel := BitVec 16

/-- The characters of a text field, in order (01 R11). -/
abbrev Text := List Byte

end Sys2Proof
end

