-- ==== Sys2Proof/Machine/Crc.lean ====
section
/-! DEFINITION. The CRC-32 of the part (11 R185) and the byte order of the link (11 R181). -/

namespace Sys2Proof.Machine

/-- One bit of the reflected computation: shift right, and exclusive-or the polynomial when a 1 fell out. -/
def crcBit (r : Slot) : Slot :=
  if r.getLsbD 0 then (r >>> 1) ^^^ 0xEDB88320#32 else r >>> 1

/-- `n` bits of the computation. -/
def crcBits : Nat → Slot → Slot
  | 0, r => r
  | n + 1, r => crcBits n (crcBit r)

/-- One byte into the register, least significant bit first. -/
def crcByte (r : Slot) (b : Byte) : Slot := crcBits 8 (r ^^^ b.zeroExtend 32)

/-- More bytes into a finished CRC: complement back to the register, run the bytes, complement again. The CRC of no
bytes is 0. -/
def crcMore (c : Slot) (bytes : List Byte) : Slot := ~~~ (bytes.foldl crcByte (~~~ c))

/-- The CRC-32 of a list of bytes (11 R185): start at 0xFFFFFFFF, complement at the end. -/
def crc32 (bytes : List Byte) : Slot := crcMore 0 bytes

/-- The four bytes of a slot, least significant first (11 R181). -/
def slotBytes (w : Slot) : List Byte :=
  [w.extractLsb' 0 8, w.extractLsb' 8 8, w.extractLsb' 16 8, w.extractLsb' 24 8]

/-- The slot of four bytes, least significant first (11 R181). -/
def slotOfBytes (b0 b1 b2 b3 : Byte) : Slot := b3 ++ b2 ++ b1 ++ b0

/-- The bytes of a sequence of slots. -/
def slotsBytes (ws : List Slot) : List Byte := ws.flatMap slotBytes

/-- The slots of a sequence of bytes, none when their number is no multiple of 4 (11 R182). -/
def bytesSlots : List Byte → Option (List Slot)
  | [] => some []
  | b0 :: b1 :: b2 :: b3 :: rest => (bytesSlots rest).map (slotOfBytes b0 b1 b2 b3 :: ·)
  | _ => none

/-- The two bytes of a 16-bit quantity, least significant first (11 R182, R184). -/
def halfBytes (w : BitVec 16) : List Byte := [w.extractLsb' 0 8, w.extractLsb' 8 8]

end Sys2Proof.Machine
end

