-- ==== Sys2Proof/Syntax.lean ====
section
/-! DEFINITION. The commands of the LJ-640: one constructor for each row of spec/opcode_table.json, in its order.

A directive carries its tag (08 R155) and `slots`, the slots of its payload after the directive code (11 R183); the
ten rows of WRITE TABLE carry the slots after the table number. The slots are carried as they came, so that a payload
of a wrong form is a command too, answered as its rule says. An event carries what its rule names. -/

namespace Sys2Proof

/-- The left or the right side: lamp bank and exposure channel L or R, imager port A or B (03, 05, 06), and the side
of a far position, a contact or a lift (02). -/
inductive Side where
  | left
  | right
  deriving DecidableEq, Repr

/-- The other side. -/
def Side.other : Side → Side
  | .left => .right
  | .right => .left

/-- The fault kind of a locked-out lamp channel: OPEN or SHORT (03 R57). -/
inductive LampFault where
  | openString
  | shorted
  deriving DecidableEq, Repr

/-- One command: a directive, a link event, a reset event, an arrival, a timer's end or an imager event. -/
inductive Instr where
  -- collation (01)
  | openVolume (tag : Byte) (slots : List Slot)
  | writeLeaves (tag : Byte) (slots : List Slot)
  | writeFoldouts (tag : Byte) (slots : List Slot)
  | writeGatherings (tag : Byte) (slots : List Slot)
  | endLoading (tag : Byte) (slots : List Slot)
  | amendLeaf (tag : Byte) (slots : List Slot)
  | skipLeaf (tag : Byte) (slots : List Slot)
  | discardVolume (tag : Byte) (slots : List Slot)
  -- turn sequencer (02)
  | start (tag : Byte) (slots : List Slot)
  | pause (tag : Byte) (slots : List Slot)
  | resume (tag : Byte) (slots : List Slot)
  | step (tag : Byte) (slots : List Slot)
  | setMode (tag : Byte) (slots : List Slot)
  | resolve (tag : Byte) (slots : List Slot)
  | move (tag : Byte) (slots : List Slot)
  | releaseVacuum (tag : Byte) (slots : List Slot)
  -- lamps and the conservation lock (03, 04)
  | clearLamp (tag : Byte) (slots : List Slot)
  | lock (tag : Byte) (slots : List Slot)
  | unlock (tag : Byte) (slots : List Slot)
  | setKey (tag : Byte) (slots : List Slot)
  -- tally and closure (07)
  | readTally (tag : Byte) (slots : List Slot)
  | closeVolume (tag : Byte) (slots : List Slot)
  | retake (tag : Byte) (slots : List Slot)
  | readClosure (tag : Byte) (slots : List Slot)
  -- table access (08): READ TABLE carries the table number and the entry index
  | readTableSettings (tag : Byte) (slots : List Slot)
  | readTableCollation (tag : Byte) (slots : List Slot)
  | writeLampCalibration (tag : Byte) (slots : List Slot)
  | writeDutyCaps (tag : Byte) (slots : List Slot)
  | writePreviewDuties (tag : Byte) (slots : List Slot)
  | writeDoseLimits (tag : Byte) (slots : List Slot)
  | writeRecipes (tag : Byte) (slots : List Slot)
  | writeMotionLimits (tag : Byte) (slots : List Slot)
  | writeSensorPolarities (tag : Byte) (slots : List Slot)
  | writeFrameGeometry (tag : Byte) (slots : List Slot)
  | writeTimers (tag : Byte) (slots : List Slot)
  | writeNoticeLevels (tag : Byte) (slots : List Slot)
  /-- `slots` begins with the table number, which names no settings table, or is empty. -/
  | writeTableOther (tag : Byte) (slots : List Slot)
  -- status, reset, settings and notices (08, 09, 10)
  | readStatus (tag : Byte) (slots : List Slot)
  | resetPart (tag : Byte) (slots : List Slot)
  | storeSettings (tag : Byte) (slots : List Slot)
  | recallSettings (tag : Byte) (slots : List Slot)
  | clearNotices (tag : Byte) (slots : List Slot)
  | setNoticeEnables (tag : Byte) (slots : List Slot)
  /-- A directive whose `code` names no directive of the part (08 R158). -/
  | unknown (tag : Byte) (code : Slot)
  -- link events (08)
  /-- A bad downstream frame; `kind` is the kind byte as received (08 R156). -/
  | badFrame (kind : Byte)
  | directiveDiscard
  | directiveDroppedBeforeReset
  | linkDown
  | linkUp
  | upstreamFrameSent
  | linkReset
  -- resets, start-up and the settings store (10)
  | powerOn
  | resetLine
  | coreSupply
  | resetReleased
  | startupRecallDone
  /-- `ok`: every write was completed and the CRC read back matches (10 R176). -/
  | storeDone (ok : Bool)
  | recallDone
  -- arrivals at the turn sequencer (02 R25); `active` is the level the input arrives at
  | homeArrival (active : Bool)
  | apexArrival (active : Bool)
  | farPositionArrival (side : Side) (active : Bool)
  | vacuumGoodArrival
  | vacuumGoodRelease
  | platenDownArrival
  | platenDownRelease
  | platenUpArrival (active : Bool)
  | contactArrival (side : Side) (active : Bool)
  | leafEdge (active : Bool)
  | pedalPress (active : Bool)
  | motionExpiry
  | manualMotionExpiry
  -- dose gate, strobes and lamps (03, 04, 05)
  | gateRequest (bank : Side)
  | strobeEnd (bank : Side)
  | frameTimeout (bank : Side)
  | channelLockout (channel : Fin 12) (fault : LampFault)
  | supplyLoss
  | supplyGoodSample
  | supplyRecovered
  | darkDelayExpiry
  /-- `first`: the bank whose charge is taken first; the spec allows either (04 R86). -/
  | doseTick (first : Side)
  | volumeClockSecond
  -- imager events (06)
  | frameStart (port : Side)
  | line (port : Side) (pixels : List Pixel)
  | frameEnd (port : Side)
  | stall (port : Side)
  deriving DecidableEq, Repr

end Sys2Proof
end

