-- ==== Sys2Proof/Machine/Types.lean ====
section
/-! DEFINITION. The data of the thirteen blocks: the enumerations in the order the spec lists their values, and the
records the blocks hold. Plain data only. -/

namespace Sys2Proof.Machine

/-- One thing for each side: bank L and bank R, channel L and channel R, port A and port B. -/
structure Both (α : Type) where
  left : α
  right : α
  deriving DecidableEq, Repr

/-- The entry of one side. -/
def Both.get {α : Type} (b : Both α) : Side → α
  | .left => b.left
  | .right => b.right

/-- The pair with the entry of one side replaced. -/
def Both.set {α : Type} (b : Both α) (i : Side) (x : α) : Both α :=
  match i with
  | .left => { b with left := x }
  | .right => { b with right := x }

/-- The same thing on both sides. -/
def both {α : Type} (x : α) : Both α := ⟨x, x⟩

/-! ### Collation (01) -/

/-- 01 R3. -/
inductive VolState where
  | empty | loading | ready | scanning | paused | closed
  deriving DecidableEq, Repr

/-- A face of a leaf: RECTO or VERSO (01 R5). -/
inductive Face where
  | recto | verso
  deriving DecidableEq, Repr

/-- The binding direction (01 R1). -/
inductive Binding where
  | ltr | rtl
  deriving DecidableEq, Repr

/-- The tally states, in the order of 07 section 7.2. -/
inductive TState where
  | pending | captured | rejected | withheld | suppressed | skipped | absent
  deriving DecidableEq, Repr

/-- Anything that can be shot, charged and tallied: a side of a leaf, or a panel of a fold-out, numbered from 1
(00, 01 R7). -/
inductive Target where
  | side (leaf : Nat) (face : Face)
  | panel (foldout number : Nat)
  deriving DecidableEq, Repr

/-- The tally fields of one target (01 R6, 07 R135). -/
structure TallyFields where
  state : TState
  takes : Nat
  dose : Nat
  firstTake : Option Nat
  lastTake : Option Nat
  deriving DecidableEq, Repr

/-- The volume record (01 R1). -/
structure VolumeRecord where
  shelfMark : Text
  part : Nat
  binding : Binding
  leafCount : Nat
  doseClass : Nat
  startLeaf : Nat
  priorDose : Option Nat
  deriving DecidableEq, Repr

/-- A leaf record (01 R5, R6). A label of no characters is an absent label (01 R11). -/
structure LeafRecord where
  written : Bool
  label : Text
  cls : Nat
  absent : Bool
  handTurn : Bool
  noRecto : Bool
  noVerso : Bool
  foldout : Option (Face × Nat)
  gathering : Option Nat
  recto : TallyFields
  verso : TallyFields
  deriving DecidableEq, Repr

/-- A panel record (01 R7). -/
structure PanelRecord where
  cls : Nat
  nested : Option Nat
  tally : TallyFields
  deriving DecidableEq, Repr

/-- A written gathering entry (01 R8). -/
structure GatheringEntry where
  label : Text
  leafCount : Nat
  deriving DecidableEq, Repr

/-- The collation table (01). -/
structure Collation where
  volState : VolState
  serial : Nat
  volume : Option VolumeRecord
  cursor : Nat
  leaves : List LeafRecord
  foldouts : List (Option (List PanelRecord))
  gatherings : List (Option GatheringEntry)
  deriving DecidableEq, Repr

/-! ### Tally (07) -/

/-- One count for each tally state (07 R135). No panel is ever ABSENT: that count of the panel counters is not one of
the six and stays 0. -/
structure Counts where
  pending : Nat
  captured : Nat
  rejected : Nat
  withheld : Nat
  suppressed : Nat
  skipped : Nat
  absent : Nat
  deriving DecidableEq, Repr

/-- One entry of the gathering summary (07 R151). -/
structure GatheringSummary where
  label : Text
  captured : Nat
  notCaptured : Nat
  deriving DecidableEq, Repr

/-- The closure record (07 R151). -/
structure Closure where
  shelfMark : Text
  part : Nat
  serial : Nat
  sideCounts : Counts
  panelCounts : Counts
  forced : Nat
  priorDose : Option Nat
  volDose : Nat
  largestDose : Nat
  largestTarget : Option Target
  seconds : Nat
  gatherings : List GatheringSummary
  digest : Slot
  deriving DecidableEq, Repr

/-- The tally unit's own state (07 R135); the tally fields lie in the leaf and panel records. `clockMs` is the part of
the running second that has passed. -/
structure Tally where
  sideCounts : Counts
  panelCounts : Counts
  retakes : List (Nat × Face)
  clock : Nat
  clockRuns : Bool
  clockMs : Nat
  closure : Option Closure
  deriving DecidableEq, Repr

/-! ### Turn sequencer (02) -/

/-- The thirteen states, in the order of 02 R26. -/
inductive SeqState where
  | stopped | present | platenDown | held | platenUp | pick | carry | lay | home | handWait | foldWait | panelHeld
  | fault
  deriving DecidableEq, Repr

/-- The seven motions, in the order of the motion limits table (08 R163). -/
inductive Motion where
  | present | platenDown | platenUp | pick | carry | lay | home
  deriving DecidableEq, Repr

/-- The manual motions of MOVE (02 R51). -/
inductive ManualMotion where
  | platenUp | platenDown | armHome | liftsDown
  deriving DecidableEq, Repr

inductive Mode where
  | auto | step | hand
  deriving DecidableEq, Repr

inductive Dir where
  | forward | backward
  deriving DecidableEq, Repr

/-- The phase of a fold-out stack entry (02 R26). -/
inductive Phase where
  | presentNext | advanceNext
  deriving DecidableEq, Repr

structure StackEntry where
  foldout : Nat
  panel : Nat
  phase : Phase
  deriving DecidableEq, Repr

/-- The sequence kinds (02 R31). -/
inductive SeqKind where
  | machineTurn | handRaise | foldRaise | restore
  deriving DecidableEq, Repr

inductive FaultCause where
  | timeout | mispick | doubleTurn | slipped
  deriving DecidableEq, Repr

inductive Resolution where
  | none | retry | hand | giveBack | advance
  deriving DecidableEq, Repr

/-- The fault record (02 R26). -/
structure FaultRecord where
  motion : Motion
  cause : FaultCause
  turned : Option Nat
  owed : Option Dir
  resolution : Resolution
  deriving DecidableEq, Repr

/-- Why the volume goes to PAUSED (02 R47). -/
inductive PauseCause where
  | pause | link | fault | volumeEnd
  deriving DecidableEq, Repr

/-- The eleven inputs, in the order of the sensor polarities table (08 R163). -/
inductive Input where
  | home | apex | farLeft | farRight | vacuumGood | platenDown | platenUp | leftContact | rightContact | leafEdge
  | pedal
  deriving DecidableEq, Repr

/-- One bit for each input. -/
structure Inputs where
  home : Bool
  apex : Bool
  farLeft : Bool
  farRight : Bool
  vacuumGood : Bool
  platenDown : Bool
  platenUp : Bool
  leftContact : Bool
  rightContact : Bool
  leafEdge : Bool
  pedal : Bool
  deriving DecidableEq, Repr

inductive ArmDrive where
  | towardLeft | towardRight | brake
  deriving DecidableEq, Repr

inductive PlatenDrive where
  | down | up | off
  deriving DecidableEq, Repr

inductive LiftDrive where
  | raise | lower | off
  deriving DecidableEq, Repr

/-- The cradle outputs (02 R24); `true` is ON. -/
structure Outputs where
  arm : ArmDrive
  vacuum : Bool
  puff : Bool
  platen : PlatenDrive
  lifts : Both LiftDrive
  deriving DecidableEq, Repr

/-- The turn in flight: its direction and its turned leaf (02 R29). -/
structure Turn where
  dir : Dir
  leaf : Nat
  deriving DecidableEq, Repr

/-- The turn sequencer (02 R24 to R26). The top entry of `stack` is its head. `holdGiven`, `waiting`, `turn` and
`edgesFixed` are the model's own bookkeeping (log 21). -/
structure Sequencer where
  state : SeqState
  p : Nat
  dir : Dir
  mode : Mode
  stack : List StackEntry
  stackBank : Option Side
  retries : Nat
  edges : Nat
  double : Bool
  kind : Option SeqKind
  owed : Option Dir
  pendingPause : Option PauseCause
  pendingStep : Option Dir
  foldMark : Both Bool
  settledHere : Both Bool
  fault : Option FaultRecord
  disturbed : Bool
  manual : Option ManualMotion
  levels : Inputs
  readings : Inputs
  lastFar : Option Side
  outputs : Outputs
  hold : Bool
  motionLeft : Nat
  manualLeft : Nat
  holdGiven : Bool
  waiting : Bool
  turn : Option Turn
  edgesFixed : Bool
  deriving DecidableEq, Repr

/-! ### Lamp driver (03) -/

inductive BankLevel where
  | dark | preview | strobe
  deriving DecidableEq, Repr

/-- The dark causes of 03 R68. -/
inductive DarkCause where
  | supply | motion | fold | delay | cut
  deriving DecidableEq, Repr

inductive Supply where
  | low | recovering | good
  deriving DecidableEq, Repr

/-- A running strobe: its six duties and the scans still to run (03 R53, R60). The duties are the strobe duties fixed
at the gate, but that of a channel that has gone dark since is 0 for the rest of the strobe (R55); the gate figures of
the exposure channel keep what the gate fixed. -/
structure Strobe where
  duties : List Nat
  scans : Nat
  deriving DecidableEq, Repr

/-- The lamp driver (03 R53). `scanSlot`: the slot of a bank's scan, counted from 0. `slotDuty`: the preview duty and
duty cap taken together at the start of that slot (R55). `darkLeft`: milliseconds left, none when the timer is
stopped. -/
structure Lamps where
  lockouts : List (Option LampFault)
  strobe : Both (Option Strobe)
  scanSlot : Both Nat
  slotDuty : Both Nat
  cut : Both Bool
  darkLeft : Option Nat
  darkExpired : Bool
  supply : Supply
  recovery : Nat
  deriving DecidableEq, Repr

/-! ### Dose meter (04) -/

/-- The conservation lock: OPEN (`unlocked`) or CLOSED (04 R88). -/
inductive LockState where
  | unlocked | closed
  deriving DecidableEq, Repr

/-- Which limit refused a shot or was reached (04 R83, R87). -/
inductive LimitHit where
  | side | volume | both
  deriving DecidableEq, Repr

/-- The dose meter (04 R70). -/
structure Dose where
  volDose : Nat
  lock : LockState
  mismatches : Nat
  tickMs : Nat
  deriving DecidableEq, Repr

/-- The gate figures of a shot (04 R82): strobe duties, E, t' and D. -/
structure GateFigures where
  duties : List Nat
  illuminance : Nat
  exposure : Nat
  dose : Nat
  deriving DecidableEq, Repr

/-! ### Exposure channels (05) -/

inductive ChanState where
  | idle | arming | gating | firing | awaiting | done
  deriving DecidableEq, Repr

/-- The verdicts, in the order of 06 R129. -/
inductive Verdict where
  | abandoned | late | moved | truncated | overrun | under | over | clipped | good
  deriving DecidableEq, Repr

/-- The rejections of 05 R104 (11 R181 numbers them). -/
inductive Rejection where
  | moved | truncated | overrun | under | over | clipped | missing | supplyCut
  deriving DecidableEq, Repr

/-- The recipe copy of one shot (05 R95). -/
structure ShotCopy where
  duties : List Nat
  time : Nat
  lo : Nat
  hi : Nat
  clipLimit : Nat
  takeLimit : Nat
  shotCount : Nat
  deriving DecidableEq, Repr

/-- An exposure channel (05 R95). `shot` 0 stands for an absent shot index; `timeout` is the milliseconds left of a
running frame timeout. -/
structure Channel where
  state : ChanState
  target : Option Target
  shot : Nat
  takes : Nat
  copy : Option ShotCopy
  gate : Option GateFigures
  kept : Option Verdict
  timeout : Option Nat
  trigger : Bool
  deriving DecidableEq, Repr

/-! ### Imager ports (06) -/

inductive PortState where
  | idle | armed | receiving
  deriving DecidableEq, Repr

inductive HeaderStatus where
  | live | expired | abandoned
  deriving DecidableEq, Repr

inductive EndCause where
  | frameEnd | nextStart | stall
  deriving DecidableEq, Repr

/-- An entry of the frame geometry and window table (06 R117). -/
structure Geometry where
  width : Nat
  height : Nat
  x0 : Nat
  x1 : Nat
  y0 : Nat
  y1 : Nat
  clipLevel : Nat
  deriving DecidableEq, Repr

/-- A shot header (05 R98, 06 R115, R120). `fired` holds the gate figures and the take count once the header has been
completed: the fired mark is that it is present. -/
structure Header where
  serial : Nat
  bank : Side
  target : Target
  cls : Nat
  shot : Nat
  shotCount : Nat
  take : Nat
  lo : Nat
  hi : Nat
  clipLimit : Nat
  status : HeaderStatus
  fired : Option (GateFigures × Nat)
  moved : Bool
  deriving DecidableEq, Repr

/-- The frame record of a frame in reception (06 R115). `stallLeft`: milliseconds left of the stall timer, whose
full length is `stallLimit`. -/
structure Frame where
  number : Nat
  geometry : Geometry
  arrived : Nat
  dropped : Nat
  bad : Nat
  excess : Nat
  sum : Nat
  n : Nat
  clips : Nat
  crc : Slot
  moved : Bool
  stallLimit : Nat
  stallLeft : Nat
  deriving DecidableEq, Repr

/-- The figures of a trailer burst (06 R128). -/
structure Trailer where
  port : Side
  number : Nat
  verdict : Verdict
  cause : EndCause
  mean : Nat
  clipPerMille : Nat
  n : Nat
  arrived : Nat
  dropped : Nat
  bad : Nat
  excess : Nat
  forwarded : Nat
  crc : Slot
  deriving DecidableEq, Repr

/-- A burst of a port's queue (06 R121, R123, R128). -/
inductive Burst where
  | header (port : Side) (number : Nat) (geometry : Geometry) (header : Header)
  | line (port : Side) (number lineNumber : Nat) (pixels : List Pixel)
  | trailer (t : Trailer)
  deriving DecidableEq, Repr

/-- An imager port (06 R115). -/
structure Port where
  state : PortState
  armed : Option Header
  waiting : Option Header
  frame : Option Frame
  queue : List Burst
  frameNo : Nat
  unsolicited : Nat
  refused : Nat
  deriving DecidableEq, Repr

/-! ### Notices (09) -/

/-- The sixteen sources, in rank order (09 R168). -/
inductive Source where
  | lampSupply | motionFault | doubleTurn | channelLockout | doseWithheld | previewCut | sideRejected | frameMissing
  | lineOverrun | handWait | openingDone | volumeEnd | paused | linkFault | store | restarted
  deriving DecidableEq, Repr

inductive NoticeLevel where
  | urgent | normal
  deriving DecidableEq, Repr

/-- The held state of one source (09 R169). -/
structure SourceState where
  flag : Bool
  sent : Bool
  repeats : Nat
  detail : List Slot
  stamp : Option Nat
  deriving DecidableEq, Repr

/-- The notice unit's unstored state (09 R169), sources in rank order. -/
structure Notices where
  sources : List SourceState
  master : Bool
  deriving DecidableEq, Repr

/-- A notice as it is taken for sending (09 R171). -/
structure Notice where
  source : Nat
  level : NoticeLevel
  repeats : Nat
  stamp : Option Nat
  detail : List Slot
  deriving DecidableEq, Repr

/-! ### Link (08) -/

/-- The reply codes, in the order of 08 R160. -/
inductive ReplyCode where
  | ok | okClamped | badForm | unknown | wrongState | outOfRange | busy | locked | keyMismatch | volumeActive
  | collationBad | incomplete | notSettled | listFull | doseExhausted | ambiguous | noSuchLeaf
  deriving DecidableEq, Repr

/-- A reply: the directive's tag and code, the reply code and the result slots (08 R160, 11 R183). -/
structure Reply where
  tag : Byte
  directive : Slot
  code : ReplyCode
  results : List Slot
  deriving DecidableEq, Repr

/-- A frame the upstream transmitter sends (08 R155, R166). -/
inductive UpFrame where
  | reply (r : Reply)
  | notice (n : Notice)
  | burst (b : Burst)
  deriving DecidableEq, Repr

/-- The reset kinds, in the order of 10 R178. -/
inductive ResetCause where
  | powerOn | resetLine | linkReset | coreSupply
  deriving DecidableEq, Repr

/-- The station link port, the decoder and the arbiter (08). `incoming`: the bytes received so far of the downstream
frame in reception, none when no frame is (R157, R167). -/
structure Link where
  up : Bool
  lock : Bool
  errors : Nat
  discards : Nat
  replies : List Reply
  resetWaiting : Bool
  lastServed : Side
  sending : Option UpFrame
  incoming : List Byte
  cause : ResetCause
  deriving DecidableEq, Repr

/-! ### Settings (10 R175) -/

/-- A channel's calibration: rated illuminance, trim, duty cap and preview duty (04 R70). -/
structure Calibration where
  rating : Nat
  trim : Int
  cap : Nat
  preview : Nat
  deriving DecidableEq, Repr

/-- The limits of a dose class (04 R78). -/
structure DoseLimit where
  side : Nat
  volume : Nat
  deriving DecidableEq, Repr

/-- One shot of a recipe (05 R93). -/
structure Shot where
  duties : List Nat
  time : Nat
  deriving DecidableEq, Repr

/-- A recipe (05 R93); three shots are always held. -/
structure Recipe where
  shotCount : Nat
  shots : List Shot
  lo : Nat
  hi : Nat
  clipLimit : Nat
  takeLimit : Nat
  deriving DecidableEq, Repr

inductive Polarity where
  | activeHigh | activeLow
  deriving DecidableEq, Repr

/-- The settings the image holds, and the working copy of each (10 R175). -/
structure Settings where
  calibration : List Calibration
  limits : List DoseLimit
  key : Slot
  recipes : List Recipe
  motionLimits : List Nat
  polarities : List Polarity
  geometry : Both Geometry
  darkDelay : Nat
  frameTimeout : Nat
  pickRetries : Nat
  enables : List Bool
  noticeLevels : List NoticeLevel
  deriving DecidableEq, Repr

inductive StoreState where
  | idle | storing | recalling
  deriving DecidableEq, Repr

/-- The nonvolatile image and the store's state (10 R175). `torn`: a store has begun and its CRC has not been written
(10 R176). -/
structure Store where
  state : StoreState
  elapsed : Nat
  image : Settings
  crc : Slot
  torn : Bool
  deriving DecidableEq, Repr

/-- Where the part stands between a reset's cause and the first link UP (10 R178, R180): the reset is held; start-up
step 1 runs; step 2 waits for lock; start-up is over. -/
inductive StartStep where
  | held | recall | awaitLink | running
  deriving DecidableEq, Repr

/-- The lines outside the part, as the next sample finds them (02 R25, 03 R65); `true` is high for an input, good for
the lamp supply. -/
structure Pins where
  inputs : Inputs
  supplyGood : Bool
  deriving DecidableEq, Repr

end Sys2Proof.Machine
end

