-- ==== Sys2Proof/Machine/Factory.lean ====
section
/-! DEFINITION. The factory values of the settings (10 section 10.1) and the blank records that resets and OPEN VOLUME
leave. -/

namespace Sys2Proof.Machine

/-- 05 R94: one shot, all duties 0, 10,000 µs. The spec names one exposure time; the two shots above the shot count
hold the same. -/
def Recipe.factory : Recipe where
  shotCount := 1
  shots := List.replicate 3 { duties := List.replicate 6 0, time := 10000 }
  lo := 65535
  hi := 65535
  clipLimit := 0
  takeLimit := 1

/-- 06 R117. -/
def Geometry.factory : Geometry where
  width := 1024
  height := 1024
  x0 := 0
  x1 := 1023
  y0 := 0
  y1 := 1023
  clipLevel := 65535

/-- The factory levels, in rank order (09 R168). -/
def factoryNoticeLevels : List NoticeLevel :=
  List.replicate 4 .urgent ++ List.replicate 11 .normal ++ [.urgent]

/-- The factory values, gathered in 10 section 10.1. -/
def Settings.factory : Settings where
  calibration := List.replicate 12 { rating := 0, trim := 0, cap := 255, preview := 0 }
  limits := List.replicate 4 { side := 0, volume := 0 }
  key := 0
  recipes := List.replicate 16 Recipe.factory
  motionLimits := [5000, 3000, 3000, 1500, 4000, 1500, 4000]
  polarities := List.replicate 11 .activeHigh
  geometry := both Geometry.factory
  darkDelay := 0
  frameTimeout := 2000
  pickRetries := 2
  enables := List.replicate 16 true
  noticeLevels := factoryNoticeLevels

/-- Tally fields with nothing counted (01 R16). -/
def TallyFields.blank (t : TState) : TallyFields where
  state := t
  takes := 0
  dose := 0
  firstTake := none
  lastTake := none

/-- An unwritten leaf record (01 R5). -/
def LeafRecord.unwritten : LeafRecord where
  written := false
  label := []
  cls := 0
  absent := false
  handTurn := false
  noRecto := false
  noVerso := false
  foldout := none
  gathering := none
  recto := .blank .pending
  verso := .blank .pending

/-- No counts (07 R154). -/
def Counts.zero : Counts := ⟨0, 0, 0, 0, 0, 0, 0⟩

/-- No volume (01 R23). -/
def Collation.blank : Collation where
  volState := .empty
  serial := 0
  volume := none
  cursor := 0
  leaves := []
  foldouts := List.replicate 64 none
  gatherings := List.replicate 256 none

/-- The tally after reset (07 R154). -/
def Tally.blank : Tally where
  sideCounts := .zero
  panelCounts := .zero
  retakes := []
  clock := 0
  clockRuns := false
  clockMs := 0
  closure := none

/-- Every input low, inactive. -/
def Inputs.low : Inputs :=
  ⟨false, false, false, false, false, false, false, false, false, false, false⟩

/-- Every drive braked, the vacuum valve at `vacuum` (02 R24, R52). -/
def Outputs.braked (vacuum : Bool) : Outputs where
  arm := .brake
  vacuum := vacuum
  puff := false
  platen := .off
  lifts := both .off

/-- The turn sequencer after reset (02 R52), the vacuum valve at `vacuum`. -/
def Sequencer.afterReset (vacuum : Bool) : Sequencer where
  state := .stopped
  p := 0
  dir := .forward
  mode := .auto
  stack := []
  stackBank := none
  retries := 0
  edges := 0
  double := false
  kind := none
  owed := none
  pendingPause := none
  pendingStep := none
  foldMark := both false
  settledHere := both false
  fault := none
  disturbed := false
  manual := none
  levels := .low
  readings := .low
  lastFar := none
  outputs := .braked vacuum
  hold := false
  motionLeft := 0
  manualLeft := 0
  holdGiven := false
  waiting := false
  turn := none
  edgesFixed := false

/-- The lamp driver after reset (03 R69); the dark-delay timer is restarted once the delay is recalled. R69
gives the recovery time no value of its own: it is 0, as it stands whenever the supply is LOW or GOOD (log 46). -/
def Lamps.afterReset : Lamps where
  lockouts := List.replicate 12 none
  strobe := both none
  scanSlot := both 0
  slotDuty := both 0
  cut := both false
  darkLeft := none
  darkExpired := false
  supply := .low
  recovery := 0

/-- The dose meter after reset (04 R92). -/
def Dose.afterReset : Dose where
  volDose := 0
  lock := .closed
  mismatches := 0
  tickMs := 0

/-- An exposure channel after reset (05 R114). -/
def Channel.afterReset : Channel where
  state := .idle
  target := none
  shot := 0
  takes := 0
  copy := none
  gate := none
  kept := none
  timeout := none
  trigger := false

/-- An imager port after reset (06 R134). -/
def Port.afterReset : Port where
  state := .idle
  armed := none
  waiting := none
  frame := none
  queue := []
  frameNo := 0
  unsolicited := 0
  refused := 0

/-- A notice source with nothing raised (09 R174). -/
def SourceState.clear : SourceState where
  flag := false
  sent := false
  repeats := 0
  detail := []
  stamp := none

/-- The notice unit after reset (09 R174). -/
def Notices.afterReset : Notices where
  sources := List.replicate 16 .clear
  master := false

/-- The link after a reset of kind `cause` (08 R167). An upstream frame that was being sent is broken off, with the
replies and notices that waited (log 44). -/
def Link.afterReset (cause : ResetCause) : Link where
  up := false
  lock := false
  errors := 0
  discards := 0
  replies := []
  resetWaiting := false
  lastServed := .right
  sending := none
  incoming := []
  cause := cause

end Sys2Proof.Machine
end

