-- ==== Sys2Proof/Machine/State.lean ====
section
/-! DEFINITION. The state of the LJ-640: the state of its thirteen blocks, the working settings, start-up, the lines
outside the part and the queue of commands. Plain data. INVENTORY.md lists every field with its rule. -/

namespace Sys2Proof.Machine

/-- The state of the part and the commands that wait for it. -/
structure State where
  /-- Commands waiting, first in, first out. -/
  pending : List Instr
  /-- The collation table (01). -/
  col : Collation
  /-- The tally unit (07). -/
  tally : Tally
  /-- The turn sequencer (02). -/
  seq : Sequencer
  /-- The lamp driver (03). -/
  lamps : Lamps
  /-- The dose meter (04). -/
  dose : Dose
  /-- The two exposure channels (05). -/
  chans : Both Channel
  /-- The two imager ports, A on the left and B on the right (06). -/
  ports : Both Port
  /-- The station link port, directive decoder and arbiter (08). -/
  link : Link
  /-- The notice unit (09). -/
  notices : Notices
  /-- The working settings, held by the blocks that use them (10 R175). -/
  settings : Settings
  /-- The settings store (10). -/
  store : Store
  /-- Reset and start-up (10 R178, R180). -/
  start : StartStep
  /-- The lines outside the part. -/
  pins : Pins
  deriving DecidableEq, Repr

/-- The reasons a step could stop with a fault. There are none: the spec gives every command an effect, and what goes
wrong in the cradle is state (a fault record, a mark, a notice), so no meaning raises one. Safe. -/
inductive Fault where
  deriving DecidableEq, Repr

/-- The reasons a command could be refused. -/
inductive Refusal where
  /-- Raised by exec's own arm for a command that has no meaning yet; no arm raises it now. Safe. -/
  | notModelled (mnemonic : String)
  deriving DecidableEq, Repr

/-- The part at the release of a POWER_ON reset (10 R178 to R180): every block at its reset values, start-up step 1,
the recall, running. The image is not valid (log 4), the working settings stand at the factory values until the recall
ends (log 5) and the lines outside are low (log 7). The CRC held beside that image is 0, which the spec does not give
(log 4). -/
def State.reset : State where
  pending := []
  col := .blank
  tally := .blank
  seq := .afterReset false
  lamps := .afterReset
  dose := .afterReset
  chans := both .afterReset
  ports := both .afterReset
  link := .afterReset .powerOn
  notices := .afterReset
  settings := .factory
  store := { state := .recalling, elapsed := 0, image := .factory, crc := 0, torn := true }
  start := .recall
  pins := { inputs := .low, supplyGood := false }

end Sys2Proof.Machine
end

