-- ==== Sys2Proof/Machine/Layout.lean ====
section
/-! DEFINITION. The numbers of the enumerations and the slots of records, replies, notices and bursts
(11 R181 to R184). -/

namespace Sys2Proof.Machine

/-! ### Numbers (11 R181) -/

/-- A quantity in its slot. -/
def slot (n : Nat) : Slot := BitVec.ofNat 32 n

/-- A quantity that can be negative, in its slot. -/
def slotInt (n : Int) : Slot := BitVec.ofInt 32 n

/-- A 48-bit quantity: the high part first. -/
def slots48 (n : Nat) : List Slot := [slot (n / 2 ^ 32), slot (n % 2 ^ 32)]

/-- A bit in its slot. -/
def slotBool (b : Bool) : Slot := if b then 1 else 0

/-- A field that may be absent: its presence slot, then its slot, 0 when absent. -/
def slotsOpt (x : Option Nat) : List Slot :=
  match x with
  | some n => [1, slot n]
  | none => [0, 0]

def VolState.num : VolState → Nat
  | .empty => 0 | .loading => 1 | .ready => 2 | .scanning => 3 | .paused => 4 | .closed => 5

def Face.num : Face → Nat
  | .recto => 0 | .verso => 1

def Binding.num : Binding → Nat
  | .ltr => 0 | .rtl => 1

def TState.num : TState → Nat
  | .pending => 0 | .captured => 1 | .rejected => 2 | .withheld => 3 | .suppressed => 4 | .skipped => 5 | .absent => 6

def SeqState.num : SeqState → Nat
  | .stopped => 0 | .present => 1 | .platenDown => 2 | .held => 3 | .platenUp => 4 | .pick => 5 | .carry => 6
  | .lay => 7 | .home => 8 | .handWait => 9 | .foldWait => 10 | .panelHeld => 11 | .fault => 12

def Motion.num : Motion → Nat
  | .present => 0 | .platenDown => 1 | .platenUp => 2 | .pick => 3 | .carry => 4 | .lay => 5 | .home => 6

def ManualMotion.num : ManualMotion → Nat
  | .platenUp => 7 | .platenDown => 8 | .armHome => 9 | .liftsDown => 10

def Mode.num : Mode → Nat
  | .auto => 0 | .step => 1 | .hand => 2

def Dir.num : Dir → Nat
  | .forward => 0 | .backward => 1

/-- Direction, owed turn, pending step: none or absent is 2. -/
def dirOptNum : Option Dir → Nat
  | some d => d.num
  | none => 2

def FaultCause.num : FaultCause → Nat
  | .timeout => 0 | .mispick => 1 | .doubleTurn => 2 | .slipped => 3

def Resolution.num : Resolution → Nat
  | .none => 0 | .retry => 1 | .hand => 2 | .giveBack => 3 | .advance => 4

def PauseCause.num : PauseCause → Nat
  | .pause => 0 | .link => 1 | .fault => 2 | .volumeEnd => 3

/-- The index of an input in the sensor polarities table (08 R163). -/
def Input.num : Input → Nat
  | .home => 0 | .apex => 1 | .farLeft => 2 | .farRight => 3 | .vacuumGood => 4 | .platenDown => 5 | .platenUp => 6
  | .leftContact => 7 | .rightContact => 8 | .leafEdge => 9 | .pedal => 10

def sideNum : Side → Nat
  | .left => 0 | .right => 1

def BankLevel.num : BankLevel → Nat
  | .dark => 0 | .preview => 1 | .strobe => 2

def DarkCause.num : DarkCause → Nat
  | .supply => 0 | .motion => 1 | .fold => 2 | .delay => 3 | .cut => 4

def Supply.num : Supply → Nat
  | .low => 0 | .recovering => 1 | .good => 2

def lampFaultNum : LampFault → Nat
  | .openString => 0 | .shorted => 1

def LockState.num : LockState → Nat
  | .unlocked => 0 | .closed => 1

def LimitHit.num : LimitHit → Nat
  | .side => 0 | .volume => 1 | .both => 2

def ChanState.num : ChanState → Nat
  | .idle => 0 | .arming => 1 | .gating => 2 | .firing => 3 | .awaiting => 4 | .done => 5

def Verdict.num : Verdict → Nat
  | .abandoned => 0 | .late => 1 | .moved => 2 | .truncated => 3 | .overrun => 4 | .under => 5 | .over => 6
  | .clipped => 7 | .good => 8

def Rejection.num : Rejection → Nat
  | .moved => 2 | .truncated => 3 | .overrun => 4 | .under => 5 | .over => 6 | .clipped => 7 | .missing => 9
  | .supplyCut => 10

def PortState.num : PortState → Nat
  | .idle => 0 | .armed => 1 | .receiving => 2

def HeaderStatus.num : HeaderStatus → Nat
  | .live => 0 | .expired => 1 | .abandoned => 2

def EndCause.num : EndCause → Nat
  | .frameEnd => 0 | .nextStart => 1 | .stall => 2

/-- A source's number: its rank less one (11 R184). -/
def Source.num : Source → Nat
  | .lampSupply => 0 | .motionFault => 1 | .doubleTurn => 2 | .channelLockout => 3 | .doseWithheld => 4
  | .previewCut => 5 | .sideRejected => 6 | .frameMissing => 7 | .lineOverrun => 8 | .handWait => 9
  | .openingDone => 10 | .volumeEnd => 11 | .paused => 12 | .linkFault => 13 | .store => 14 | .restarted => 15

def NoticeLevel.num : NoticeLevel → Nat
  | .urgent => 0 | .normal => 1

def ReplyCode.num : ReplyCode → Nat
  | .ok => 0 | .okClamped => 1 | .badForm => 2 | .unknown => 3 | .wrongState => 4 | .outOfRange => 5 | .busy => 6
  | .locked => 7 | .keyMismatch => 8 | .volumeActive => 9 | .collationBad => 10 | .incomplete => 11
  | .notSettled => 12 | .listFull => 13 | .doseExhausted => 14 | .ambiguous => 15 | .noSuchLeaf => 16

def ResetCause.num : ResetCause → Nat
  | .powerOn => 0 | .resetLine => 1 | .linkReset => 2 | .coreSupply => 3

def Polarity.num : Polarity → Nat
  | .activeHigh => 0 | .activeLow => 1

/-! ### Text and records (11 R181, R183) -/

/-- A text field of `size` bytes: the length byte, the characters, fill. Size 36 for a shelf mark, 12 for a label. -/
def textSlots (size : Nat) (t : Text) : List Slot :=
  let bytes := BitVec.ofNat 8 t.length :: t
  (bytesSlots (bytes ++ List.replicate (size - bytes.length) 0)).getD []

/-- A label: three slots. -/
def labelSlots (t : Text) : List Slot := textSlots 12 t

/-- Tally fields: six slots (11 R183). -/
def tallySlots (t : TallyFields) : List Slot :=
  [slot t.state.num, slot t.takes, slot t.dose,
   slotBool t.firstTake.isSome ||| (slotBool t.lastTake.isSome <<< 1),
   slot (t.firstTake.getD 0), slot (t.lastTake.getD 0)]

/-- A target: two slots (11 R184). -/
def targetSlots : Target → List Slot
  | .side leaf face => [slot leaf, slot face.num]
  | .panel f n => [slot f ||| 0x80000000#32, slot n]

/-- A target that may be absent, after its presence slot. -/
def targetOptSlots : Option Target → List Slot
  | some t => 1 :: targetSlots t
  | none => [0, 0, 0]

/-- A leaf record: six slots (11 R183). -/
def leafSlots (l : LeafRecord) : List Slot :=
  labelSlots l.label ++
  [slot l.cls,
   slotBool l.absent ||| (slotBool l.handTurn <<< 1) ||| (slotBool l.noRecto <<< 2) |||
     (slotBool l.noVerso <<< 3) ||| (slotBool l.foldout.isSome <<< 4) |||
     (slot ((l.foldout.map (·.1.num)).getD 0) <<< 5),
   slot ((l.foldout.map (·.2)).getD 0)]

/-- A panel record: three slots (11 R183). -/
def panelSlots (p : PanelRecord) : List Slot :=
  [slot p.cls, slotBool p.nested.isSome, slot (p.nested.getD 0)]

/-- The seven side counters, in state order. -/
def Counts.slots7 (c : Counts) : List Slot :=
  [slot c.pending, slot c.captured, slot c.rejected, slot c.withheld, slot c.suppressed, slot c.skipped, slot c.absent]

/-- The six panel counters, in state order. -/
def Counts.slots6 (c : Counts) : List Slot :=
  [slot c.pending, slot c.captured, slot c.rejected, slot c.withheld, slot c.suppressed, slot c.skipped]

/-! ### Settings-table entries (11 R183) -/

def limitSlots (l : DoseLimit) : List Slot := slot l.side :: slots48 l.volume

def shotSlots (s : Shot) : List Slot := s.duties.map slot ++ [slot s.time]

def recipeSlots (r : Recipe) : List Slot :=
  slot r.shotCount :: r.shots.flatMap shotSlots ++ [slot r.lo, slot r.hi, slot r.clipLimit, slot r.takeLimit]

def geometrySlots (g : Geometry) : List Slot :=
  [slot g.width, slot g.height, slot g.x0, slot g.x1, slot g.y0, slot g.y1, slot g.clipLevel]

def timersSlots (s : Settings) : List Slot := [slot s.darkDelay, slot s.frameTimeout, slot s.pickRetries]

/-- The contents of the settings image that its CRC covers (11 R185). The spec gives no layout: the settings in the
order of 10 R175, each in its table's slots (DESIGN CHOICE, log 28). -/
def settingsSlots (s : Settings) : List Slot :=
  s.calibration.flatMap (fun c => [slot c.rating, slotInt c.trim, slot c.cap, slot c.preview]) ++
  s.limits.flatMap limitSlots ++ [s.key] ++ s.recipes.flatMap recipeSlots ++
  s.motionLimits.map slot ++ s.polarities.map (slot ·.num) ++
  geometrySlots s.geometry.left ++ geometrySlots s.geometry.right ++ timersSlots s ++
  s.enables.map slotBool ++ s.noticeLevels.map (slot ·.num)

/-- The CRC-32 over the settings in the image (10 R175). -/
def settingsCrc (s : Settings) : Slot := crc32 (slotsBytes (settingsSlots s))

/-! ### Upstream payloads (11 R183, R184) -/

/-- A notice payload: the five detail slots are filled up with 0. -/
def noticeSlots (n : Notice) : List Slot :=
  [slot n.source, slot n.level.num, slot n.repeats] ++ slotsOpt n.stamp ++
  (n.detail ++ List.replicate (5 - n.detail.length) 0)

/-- The gate figures and the take count of a header burst: all 0 while the fired mark is clear. -/
def firedSlots : Option (GateFigures × Nat) → List Slot
  | some (g, takes) =>
    1 :: g.duties.map slot ++ [slot g.illuminance, slot g.exposure, slot g.dose, slot takes]
  | none => List.replicate 11 0

/-- The pixels of a line burst: two bytes each, two fill bytes after an odd count. -/
def pixelBytes (ps : List Pixel) : List Byte := ps.flatMap halfBytes

/-- The payload of a burst, in bytes (11 R184). -/
def burstBytes : Burst → List Byte
  | .header port number g h => slotsBytes
      ([slot (sideNum port), slot number, slot g.width, slot g.height, slot g.x0, slot g.x1, slot g.y0, slot g.y1,
        slot h.serial, slot (sideNum h.bank)] ++ targetSlots h.target ++
       [slot h.cls, slot h.shot, slot h.shotCount, slot h.take, slot h.lo, slot h.hi, slot h.clipLimit] ++
       firedSlots h.fired)
  | .line port number lineNumber pixels =>
      slotsBytes [slot (sideNum port), slot number, slot lineNumber, slot pixels.length] ++ pixelBytes pixels ++
      (if pixels.length % 2 = 1 then [0, 0] else [])
  | .trailer t => slotsBytes
      [slot (sideNum t.port), slot t.number, slot t.verdict.num, slot t.cause.num, slot t.mean, slot t.clipPerMille,
       slot t.n, slot t.arrived, slot t.dropped, slot t.bad, slot t.excess, slot t.forwarded, t.crc]

/-- The kind byte of an upstream frame (11 R182). -/
def UpFrame.kind : UpFrame → Byte
  | .reply _ => 0x81
  | .notice _ => 0x82
  | .burst (.header ..) => 0x83
  | .burst (.line ..) => 0x84
  | .burst (.trailer _) => 0x85

/-- The tag of an upstream frame: a reply carries its directive's, the others 0 (08 R155). -/
def UpFrame.tag : UpFrame → Byte
  | .reply r => r.tag
  | _ => 0

/-- The payload of an upstream frame. -/
def UpFrame.payload : UpFrame → List Byte
  | .reply r => slotsBytes (r.directive :: slot r.code.num :: r.results)
  | .notice n => slotsBytes (noticeSlots n)
  | .burst b => burstBytes b

/-- The bytes of an envelope from the kind to the CRC-32 (11 R182). -/
def envelope (kind tag : Byte) (payload : List Byte) : List Byte :=
  let covered := [kind, tag] ++ halfBytes (BitVec.ofNat 16 payload.length) ++ payload
  covered ++ slotBytes (crc32 covered)

/-- The bytes of an upstream frame on the link. -/
def UpFrame.bytes (f : UpFrame) : List Byte := envelope f.kind f.tag f.payload

end Sys2Proof.Machine
end

