-- ==== Sys2Proof/Decode.lean ====
section
/-! DEFINITION. From the wire to commands: the downstream frame (08 R155, R156; 11 R182, R183) read byte by byte, and
the frame of a directive written. The table of operations gives no row any bits, so no table word spells a command. -/

namespace Sys2Proof

/-- The command that a table word spells: none, since no row of the table has bits. -/
def decodeTableWord (_nbits _w : Nat) : Option Instr := none

namespace Machine

/-! ### Payloads (11 R183) -/

/-- WRITE TABLE by its table number (08 R162). -/
def decodeWrite (tag : Byte) (ws : List Slot) : Instr :=
  match ws with
  | [] => .writeTableOther tag []
  | t :: fs =>
    if t = 0 then .writeLampCalibration tag fs
    else if t = 1 then .writePreviewDuties tag fs
    else if t = 2 then .writeDutyCaps tag fs
    else if t = 3 then .writeDoseLimits tag fs
    else if t = 4 then .writeRecipes tag fs
    else if t = 5 then .writeMotionLimits tag fs
    else if t = 6 then .writeSensorPolarities tag fs
    else if t = 7 then .writeFrameGeometry tag fs
    else if t = 8 then .writeTimers tag fs
    else if t = 9 then .writeNoticeLevels tag fs
    else .writeTableOther tag (t :: fs)

/-- Whether the slots of a READ TABLE name one of the four collation tables, 10 to 13. -/
def namesCollation (ws : List Slot) : Bool :=
  match ws with
  | [] => false
  | t :: _ => decide (10 ≤ t.toNat) && decide (t.toNat ≤ 13)

/-- READ TABLE by its table number. -/
def decodeRead (tag : Byte) (ws : List Slot) : Instr :=
  if namesCollation ws then .readTableCollation tag ws else .readTableSettings tag ws

/-- A directive by its code and the slots that follow it. -/
def decodeCode (tag : Byte) (code : Slot) (ws : List Slot) : Instr :=
  if code = 0x0010 then .openVolume tag ws
  else if code = 0x0011 then .writeLeaves tag ws
  else if code = 0x0012 then .writeFoldouts tag ws
  else if code = 0x0013 then .writeGatherings tag ws
  else if code = 0x0014 then .endLoading tag ws
  else if code = 0x0015 then .amendLeaf tag ws
  else if code = 0x0016 then .skipLeaf tag ws
  else if code = 0x0017 then .discardVolume tag ws
  else if code = 0x0020 then .start tag ws
  else if code = 0x0021 then .pause tag ws
  else if code = 0x0022 then .resume tag ws
  else if code = 0x0023 then .step tag ws
  else if code = 0x0024 then .setMode tag ws
  else if code = 0x0025 then .resolve tag ws
  else if code = 0x0026 then .move tag ws
  else if code = 0x0027 then .releaseVacuum tag ws
  else if code = 0x0030 then .clearLamp tag ws
  else if code = 0x0031 then .lock tag ws
  else if code = 0x0032 then .unlock tag ws
  else if code = 0x0033 then .setKey tag ws
  else if code = 0x0040 then .readTally tag ws
  else if code = 0x0041 then .closeVolume tag ws
  else if code = 0x0042 then .retake tag ws
  else if code = 0x0043 then .readClosure tag ws
  else if code = 0x0060 then decodeRead tag ws
  else if code = 0x0061 then decodeWrite tag ws
  else if code = 0x0062 then .readStatus tag ws
  else if code = 0x0063 then .resetPart tag ws
  else if code = 0x0064 then .storeSettings tag ws
  else if code = 0x0065 then .recallSettings tag ws
  else if code = 0x0070 then .clearNotices tag ws
  else if code = 0x0071 then .setNoticeEnables tag ws
  else .unknown tag code

/-- A directive payload: one of 0 bytes carries directive code 0 (08 R158). -/
def decodePayload (tag : Byte) (ws : List Slot) : Instr :=
  match ws with
  | [] => .unknown tag 0
  | code :: rest => decodeCode tag code rest

/-! ### Frames (08 R156, 11 R182) -/

/-- A downstream frame, its bytes between the frame's delimiters: the directive it carries, or a bad frame with its
kind byte. A frame of no byte has no kind byte; 0 is reported for it (log 29). -/
def decodeFrame (bytes : List Byte) : Instr :=
  match bytes with
  | kind :: tag :: l0 :: l1 :: rest =>
    let len := (l1 ++ l0 : BitVec 16).toNat
    let payload := rest.take len
    if len ≤ 2048 ∧ rest.length = len + 4 ∧ kind = 0x01 ∧
        rest.drop len = slotBytes (crc32 (kind :: tag :: l0 :: l1 :: payload)) then
      match bytesSlots payload with
      | some ws => decodePayload tag ws
      | none => .badFrame kind
    else .badFrame kind
  | kind :: _ => .badFrame kind
  | [] => .badFrame 0

/-! ### Writing a directive's frame -/

/-- The tag and the payload's slots of a directive; none for an event. -/
def payloadOf : Instr → Option (Byte × List Slot)
  | .openVolume tag ws => some (tag, 0x0010 :: ws)
  | .writeLeaves tag ws => some (tag, 0x0011 :: ws)
  | .writeFoldouts tag ws => some (tag, 0x0012 :: ws)
  | .writeGatherings tag ws => some (tag, 0x0013 :: ws)
  | .endLoading tag ws => some (tag, 0x0014 :: ws)
  | .amendLeaf tag ws => some (tag, 0x0015 :: ws)
  | .skipLeaf tag ws => some (tag, 0x0016 :: ws)
  | .discardVolume tag ws => some (tag, 0x0017 :: ws)
  | .start tag ws => some (tag, 0x0020 :: ws)
  | .pause tag ws => some (tag, 0x0021 :: ws)
  | .resume tag ws => some (tag, 0x0022 :: ws)
  | .step tag ws => some (tag, 0x0023 :: ws)
  | .setMode tag ws => some (tag, 0x0024 :: ws)
  | .resolve tag ws => some (tag, 0x0025 :: ws)
  | .move tag ws => some (tag, 0x0026 :: ws)
  | .releaseVacuum tag ws => some (tag, 0x0027 :: ws)
  | .clearLamp tag ws => some (tag, 0x0030 :: ws)
  | .lock tag ws => some (tag, 0x0031 :: ws)
  | .unlock tag ws => some (tag, 0x0032 :: ws)
  | .setKey tag ws => some (tag, 0x0033 :: ws)
  | .readTally tag ws => some (tag, 0x0040 :: ws)
  | .closeVolume tag ws => some (tag, 0x0041 :: ws)
  | .retake tag ws => some (tag, 0x0042 :: ws)
  | .readClosure tag ws => some (tag, 0x0043 :: ws)
  | .readTableSettings tag ws => some (tag, 0x0060 :: ws)
  | .readTableCollation tag ws => some (tag, 0x0060 :: ws)
  | .writeLampCalibration tag ws => some (tag, 0x0061 :: 0 :: ws)
  | .writePreviewDuties tag ws => some (tag, 0x0061 :: 1 :: ws)
  | .writeDutyCaps tag ws => some (tag, 0x0061 :: 2 :: ws)
  | .writeDoseLimits tag ws => some (tag, 0x0061 :: 3 :: ws)
  | .writeRecipes tag ws => some (tag, 0x0061 :: 4 :: ws)
  | .writeMotionLimits tag ws => some (tag, 0x0061 :: 5 :: ws)
  | .writeSensorPolarities tag ws => some (tag, 0x0061 :: 6 :: ws)
  | .writeFrameGeometry tag ws => some (tag, 0x0061 :: 7 :: ws)
  | .writeTimers tag ws => some (tag, 0x0061 :: 8 :: ws)
  | .writeNoticeLevels tag ws => some (tag, 0x0061 :: 9 :: ws)
  | .writeTableOther tag ws => some (tag, 0x0061 :: ws)
  | .readStatus tag ws => some (tag, 0x0062 :: ws)
  | .resetPart tag ws => some (tag, 0x0063 :: ws)
  | .storeSettings tag ws => some (tag, 0x0064 :: ws)
  | .recallSettings tag ws => some (tag, 0x0065 :: ws)
  | .clearNotices tag ws => some (tag, 0x0070 :: ws)
  | .setNoticeEnables tag ws => some (tag, 0x0071 :: ws)
  | .unknown tag code => some (tag, [code])
  | .badFrame _ | .directiveDiscard | .directiveDroppedBeforeReset | .linkDown | .linkUp | .upstreamFrameSent
  | .linkReset | .powerOn | .resetLine | .coreSupply | .resetReleased | .startupRecallDone | .storeDone _ | .recallDone
  | .homeArrival _ | .apexArrival _ | .farPositionArrival _ _ | .vacuumGoodArrival | .vacuumGoodRelease
  | .platenDownArrival | .platenDownRelease | .platenUpArrival _ | .contactArrival _ _ | .leafEdge _ | .pedalPress _
  | .motionExpiry | .manualMotionExpiry | .gateRequest _ | .strobeEnd _ | .frameTimeout _ | .channelLockout _ _
  | .supplyLoss | .supplyGoodSample | .supplyRecovered | .darkDelayExpiry | .doseTick _ | .volumeClockSecond
  | .frameStart _ | .line _ _ | .frameEnd _ | .stall _ => none

/-- The downstream frame of a directive (11 R182); none for an event. -/
def encodeFrame (i : Instr) : Option (List Byte) := (payloadOf i).map fun p => envelope 0x01 p.1 (slotsBytes p.2)

end Machine

end Sys2Proof
end

