-- ==== Sys2Proof/Machine/Flags.lean ====
section
/-! DEFINITION. The notice unit (09): raising, clearing and selecting its sixteen sources, and the saturating counts. -/

namespace Sys2Proof.Machine

/-- A count that stays at `top` once it reaches it. -/
def countUp (top n : Nat) : Nat := if n < top then n + 1 else n

/-- The stamp of a notice raised now: the volume clock, absent while the volume is EMPTY (09 R169). -/
def noticeStamp (s : State) : Option Nat :=
  if s.col.volState = .empty then none else some s.tally.clock

/-- A source after a raise (09 R170): the first sets the flag and keeps detail and stamp, a later one adds a repeat. -/
def SourceState.raise (q : SourceState) (detail : List Slot) (stamp : Option Nat) : SourceState :=
  if q.flag then { q with repeats := countUp 255 q.repeats }
  else { flag := true, sent := false, repeats := 0, detail := detail, stamp := stamp }

/-- Raise a source with its detail (09 R170), whatever the enables and the link state. -/
def raise (src : Source) (detail : List Slot) (s : State) : State :=
  { s with notices := { s.notices with
      sources := s.notices.sources.modify src.num (·.raise detail (noticeStamp s)) } }

/-- Whether the source of index `i` is eligible (09 R171). -/
def eligible (s : State) (i : Nat) : Bool :=
  let q := s.notices.sources.getD i .clear
  s.notices.master && q.flag && !q.sent && s.settings.enables.getD i false

/-- The level of the source of index `i` in the notice levels table (09 R173). -/
def noticeLevel (s : State) (i : Nat) : NoticeLevel := s.settings.noticeLevels.getD i .normal

/-- The unit's selection (09 R171): the eligible URGENT source of the lowest rank, or else the eligible NORMAL one. -/
def selection (s : State) : Option Nat :=
  ((List.range 16).find? fun i => eligible s i && (noticeLevel s i == .urgent)).or
    ((List.range 16).find? fun i => eligible s i)

/-- The notice of a source as it stands (09 R171). -/
def noticeOf (s : State) (i : Nat) : Notice :=
  let q := s.notices.sources.getD i .clear
  { source := i, level := noticeLevel s i, repeats := q.repeats, stamp := q.stamp, detail := q.detail }

/-- The sent mark of a source is set (09 R171). -/
def markSent (i : Nat) (s : State) : State :=
  { s with notices := { s.notices with sources := s.notices.sources.modify i ({ · with sent := true }) } }

/-- Clear every source whose bit is set in `named`: bit r - 1 names the source of rank r (09 R172). -/
def clearSources (named : Slot) (s : State) : State :=
  { s with notices := { s.notices with
      sources := s.notices.sources.mapIdx fun i q => if named.getLsbD i then .clear else q } }

end Sys2Proof.Machine
end

