-- ==== Sys2Proof/Machine/Ops.lean ====
section
/-! DEFINITION. The named operations over the blocks' state: replacing one channel or port, looking a target up, what
lies in view, the tally's changes, the input levels, the arbiter and the answer to a directive. -/

namespace Sys2Proof.Machine

/-! ### Replacing a part of the state -/

def State.setSeq (s : State) (q : Sequencer) : State := { s with seq := q }

def State.setOutputs (s : State) (o : Outputs) : State := { s with seq := { s.seq with outputs := o } }

def State.chan (s : State) (b : Side) : Channel := s.chans.get b

def State.setChan (s : State) (b : Side) (c : Channel) : State := { s with chans := s.chans.set b c }

def State.port (s : State) (b : Side) : Port := s.ports.get b

def State.setPort (s : State) (b : Side) (p : Port) : State := { s with ports := s.ports.set b p }

/-- An event is taken only while no reset is held (10 R179). -/
def unlessHeld (s : State) (f : State → State) : State := if s.start = .held then s else f s

/-! ### The inputs (02 R25) -/

def Inputs.get (q : Inputs) : Input → Bool
  | .home => q.home
  | .apex => q.apex
  | .farLeft => q.farLeft
  | .farRight => q.farRight
  | .vacuumGood => q.vacuumGood
  | .platenDown => q.platenDown
  | .platenUp => q.platenUp
  | .leftContact => q.leftContact
  | .rightContact => q.rightContact
  | .leafEdge => q.leafEdge
  | .pedal => q.pedal

def Inputs.set (q : Inputs) (i : Input) (b : Bool) : Inputs :=
  match i with
  | .home => { q with home := b }
  | .apex => { q with apex := b }
  | .farLeft => { q with farLeft := b }
  | .farRight => { q with farRight := b }
  | .vacuumGood => { q with vacuumGood := b }
  | .platenDown => { q with platenDown := b }
  | .platenUp => { q with platenUp := b }
  | .leftContact => { q with leftContact := b }
  | .rightContact => { q with rightContact := b }
  | .leafEdge => { q with leafEdge := b }
  | .pedal => { q with pedal := b }

/-- The input of a far position. -/
def farInput : Side → Input
  | .left => .farLeft
  | .right => .farRight

/-- The input of a page-plane contact. -/
def contactInput : Side → Input
  | .left => .leftContact
  | .right => .rightContact

/-- The reading of a raw line under a polarity (02 R25). -/
def reading (pol : Polarity) (high : Bool) : Bool :=
  match pol with
  | .activeHigh => high
  | .activeLow => !high

/-- The working polarity of an input. -/
def polarityOf (s : State) (i : Input) : Polarity := s.settings.polarities.getD i.num .activeHigh

/-! ### The collation (01) -/

/-- The leaf count N, 0 while no volume is held. -/
def leafCount (s : State) : Nat := (s.col.volume.map (·.leafCount)).getD 0

/-- The record of a leaf. -/
def leafAt (s : State) (i : Nat) : LeafRecord := s.col.leaves.getD i .unwritten

/-- A present leaf: in the book, not marked ABSENT (01 R5). -/
def present (s : State) (i : Nat) : Bool := decide (i < leafCount s) && !(leafAt s i).absent

/-- The nearest present leaf before `i`, counted down (02 R28). -/
def presentBefore (s : State) : Nat → Option Nat
  | 0 => none
  | i + 1 => if present s i then some i else presentBefore s i

/-- The next present leaf at or after `i` among `k` more leaves, or `i + k` when there is none. -/
def presentFrom (s : State) (i : Nat) : Nat → Nat
  | 0 => i
  | k + 1 => if present s i then i else presentFrom s (i + 1) k

/-- The next present leaf after `i`, or N when none follows (02 R29). -/
def presentAfter (s : State) (i : Nat) : Nat :=
  if i < leafCount s then presentFrom s (i + 1) (leafCount s - (i + 1)) else leafCount s

/-- The panels of a fold-out entry, none when it is unwritten (01 R7). -/
def panelsOf (s : State) (f : Nat) : Option (List PanelRecord) := (s.col.foldouts[f]?).join

/-- The panels loaded: those of all written entries (01 R7). -/
def panelsLoaded (fs : List (Option (List PanelRecord))) : Nat := (fs.map fun f => (f.getD []).length).sum

/-- The gathering count G: one more than the highest index written (01 R8). -/
def gatheringCount (gs : List (Option GatheringEntry)) : Nat :=
  (gs.reverse.dropWhile (·.isNone)).length

/-- The fold-outs covered by fold-out `f`: itself and every fold-out nested below it, `depth` sheets deep
(07 R145). The depth check of END LOADING keeps every fold-out at a depth of 1 to 4 (01 R15). -/
def foldTree (s : State) : Nat → Nat → List Nat
  | 0, _ => []
  | depth + 1, f => f :: ((panelsOf s f).getD []).flatMap fun p =>
      match p.nested with
      | some g => foldTree s depth g
      | none => []

/-- Every fold-out of the tree below `f`, at every depth the collation admits. -/
def coveredFoldouts (s : State) (f : Nat) : List Nat := foldTree s 4 f

/-- The panels of a list of fold-outs, in order. -/
def panelsUnder (s : State) (fs : List Nat) : List Target :=
  fs.flatMap fun f => (List.range ((panelsOf s f).getD []).length).map fun i => .panel f (i + 1)

/-- Every side of the volume, in digest order (07 R152). -/
def allSides (s : State) : List Target :=
  (List.range s.col.leaves.length).flatMap fun i => [.side i .recto, .side i .verso]

/-- Every panel of the written fold-outs, in digest order (07 R152). -/
def allPanels (s : State) : List Target := panelsUnder s (List.range s.col.foldouts.length)

/-- Every target, in digest order (07 R152). -/
def allTargets (s : State) : List Target := allSides s ++ allPanels s

/-! ### The tally fields (01 R6, 07 R136) -/

def LeafRecord.face (l : LeafRecord) : Face → TallyFields
  | .recto => l.recto
  | .verso => l.verso

def LeafRecord.setFace (l : LeafRecord) (f : Face) (t : TallyFields) : LeafRecord :=
  match f with
  | .recto => { l with recto := t }
  | .verso => { l with verso := t }

/-- The tally fields of a target, none when the collation holds no such target. -/
def fieldsOf (s : State) : Target → Option TallyFields
  | .side leaf f => (s.col.leaves[leaf]?).map (·.face f)
  | .panel f n => ((panelsOf s f).bind fun ps => if n = 0 then none else ps[n - 1]?).map (·.tally)

/-- The tally fields of a target changed by `g`. -/
def modifyFields (t : Target) (g : TallyFields → TallyFields) (s : State) : State :=
  match t with
  | .side leaf f =>
    { s with col := { s.col with
        leaves := s.col.leaves.modify leaf fun l => l.setFace f (g (l.face f)) } }
  | .panel f n =>
    if n = 0 then s else
    { s with col := { s.col with
        foldouts := s.col.foldouts.modify f fun e => e.map fun ps =>
          ps.modify (n - 1) fun p => { p with tally := g p.tally } } }

/-- The tally state of a target. -/
def stateOf (s : State) (t : Target) : Option TState := (fieldsOf s t).map (·.state)

/-- Whether a target is PENDING. -/
def isPending (s : State) (t : Target) : Bool := stateOf s t == some .pending

/-- The dose of a target. -/
def doseOf (s : State) (t : Target) : Nat := ((fieldsOf s t).map (·.dose)).getD 0

/-- The class that governs a target: its leaf's class, or its panel's (05 R93). -/
def classOf (s : State) : Target → Nat
  | .side leaf _ => (leafAt s leaf).cls
  | .panel f n => ((((panelsOf s f).getD [])[n - 1]?).map (·.cls)).getD 0

/-- The governing recipe, as it now stands (05 R93). -/
def recipeOf (s : State) (t : Target) : Recipe := s.settings.recipes.getD (classOf s t) .factory

/-- Whether some panel of the fold-out or below it is PENDING (02 R42, 07 R145). -/
def pendingBelow (s : State) (f : Nat) : Bool := (panelsUnder s (coveredFoldouts s f)).any (isPending s)

/-! ### Counters and the retake list (07 R137, R142, R144) -/

def Counts.get (c : Counts) : TState → Nat
  | .pending => c.pending
  | .captured => c.captured
  | .rejected => c.rejected
  | .withheld => c.withheld
  | .suppressed => c.suppressed
  | .skipped => c.skipped
  | .absent => c.absent

def Counts.set (c : Counts) (t : TState) (n : Nat) : Counts :=
  match t with
  | .pending => { c with pending := n }
  | .captured => { c with captured := n }
  | .rejected => { c with rejected := n }
  | .withheld => { c with withheld := n }
  | .suppressed => { c with suppressed := n }
  | .skipped => { c with skipped := n }
  | .absent => { c with absent := n }

def Counts.add1 (c : Counts) (t : TState) : Counts := c.set t (c.get t + 1)

def Counts.sub1 (c : Counts) (t : TState) : Counts := c.set t (c.get t - 1)

/-- One count moved from a state to another (07 R137). -/
def Counts.shift (c : Counts) (before after : TState) : Counts := (c.sub1 before).add1 after

/-- The counts of a list of states. -/
def countStates (ts : List TState) : Counts := ts.foldl Counts.add1 .zero

/-- The key of a retake entry: leaf, then RECTO before VERSO (07 R142). -/
def retakeKey (e : Nat × Face) : Nat := 2 * e.1 + e.2.num

/-- An entry inserted at its place in the list's order (07 R142). -/
def insertRetake (e : Nat × Face) : List (Nat × Face) → List (Nat × Face)
  | [] => [e]
  | x :: xs => if retakeKey e < retakeKey x then e :: x :: xs else x :: insertRetake e xs

/-- The counters of the target's kind with one count moved. -/
def moveCount (t : Target) (before after : TState) (s : State) : State :=
  match t with
  | .side _ _ => { s with tally := { s.tally with sideCounts := s.tally.sideCounts.shift before after } }
  | .panel _ _ => { s with tally := { s.tally with panelCounts := s.tally.panelCounts.shift before after } }

/-- The retake list without a side (07 R144); a panel is never in it. -/
def dropRetake (t : Target) (s : State) : State :=
  match t with
  | .side leaf f => { s with tally := { s.tally with retakes := s.tally.retakes.filter (· != (leaf, f)) } }
  | .panel _ _ => s

/-- A change of tally state with its counters (07 R136, R137). -/
def changeState (t : Target) (before after : TState) (s : State) : State :=
  moveCount t before after (modifyFields t ({ · with state := after }) s)

/-! ### What lies in view (02 R28) -/

/-- The turning side of a binding direction: the right bank for LTR, the left for RTL. -/
def turningSide : Binding → Side
  | .ltr => .right
  | .rtl => .left

/-- The turning side of the volume held. -/
def State.turning (s : State) : Side := turningSide ((s.col.volume.map (·.binding)).getD .ltr)

/-- The side that a bank sees at opening `p` (02 R28). -/
def sideInView (s : State) (b : Side) : Option Target :=
  if b = s.turning then (if present s s.seq.p then some (.side s.seq.p .recto) else none)
  else (presentBefore s s.seq.p).map fun i => .side i .verso

/-- The target in view of a bank (02 R28). -/
def inView (s : State) (b : Side) : Option Target :=
  match s.seq.state with
  | .stopped => none
  | .foldWait | .panelHeld =>
    if s.seq.stackBank = some b then s.seq.stack.head?.map fun e => .panel e.foldout e.panel else none
  | _ => if s.col.volume.isSome then sideInView s b else none

/-- The opening to which a side belongs (02 R28). -/
def openingOf (s : State) (leaf : Nat) (f : Face) : Nat :=
  match f with
  | .recto => leaf
  | .verso => presentAfter s leaf

/-- After a change of what is in view: the preview-cut mark of each bank whose target in view has changed is cleared
(03 R62). -/
def clearCuts (old s : State) : State :=
  { s with lamps := { s.lamps with cut :=
      { left := s.lamps.cut.left && (inView s .left == inView old .left)
        right := s.lamps.cut.right && (inView s .right == inView old .right) } } }

/-- Both preview-cut marks cleared, as the sequencer goes to STOPPED (03 R62). -/
def dropCuts (s : State) : State := { s with lamps := { s.lamps with cut := both false } }

/-- The sequencer replaced, with the preview cuts that the change of view clears. -/
def reseat (q : Sequencer) (s : State) : State := clearCuts s (s.setSeq q)

/-! ### Settling and unsettling (07 R138, R143) -/

/-- While the hold has been granted in HELD or PANEL_HELD, the bank in whose view a target settles takes its
settled-here mark (02 R35). -/
def markSettledHere (t : Target) (s : State) : State :=
  if s.seq.holdGiven && (s.seq.state == .held || s.seq.state == .panelHeld) then
    s.setSeq { s.seq with settledHere :=
      { left := s.seq.settledHere.left || inView s .left == some t
        right := s.seq.settledHere.right || inView s .right == some t } }
  else s

/-- A settling (07 R138): applied when the target is PENDING, whole, with its counter, the retake list and the
settled-here mark. -/
def settle (t : Target) (after : TState) (s : State) : State :=
  if isPending s t then markSettledHere t (dropRetake t (changeState t .pending after s)) else s

/-- Settle every PENDING target of a list (07 R138). -/
def settleAll (ts : List Target) (after : TState) (s : State) : State :=
  ts.foldl (fun s t => settle t after s) s

/-- An unsettling of a target that is not PENDING (07 R136). -/
def unsettle (t : Target) (s : State) : State :=
  match stateOf s t with
  | some before => if before = .pending then s else changeState t before .pending s
  | none => s

/-- The tally's re-offer of a fold-out (07 R145): REJECTED and WITHHELD panels become PENDING. -/
def reOffer (f : Nat) (s : State) : State :=
  (panelsUnder s (coveredFoldouts s f)).foldl
    (fun s t => if stateOf s t = some .rejected ∨ stateOf s t = some .withheld then unsettle t s else s) s

/-- A take report (07 R139). -/
def reportTake (t : Target) (s : State) : State :=
  modifyFields t (fun q => { q with takes := countUp 255 q.takes }) s

/-- An acceptance report's stamps (07 R141). -/
def reportAccepted (t : Target) (s : State) : State :=
  modifyFields t (fun q => { q with
    firstTake := q.firstTake.or (some s.tally.clock), lastTake := some s.tally.clock }) s

/-! ### Drives (02 R24) -/

/-- Brake every drive: the vacuum valve stands. -/
def Outputs.brakeAll (o : Outputs) : Outputs :=
  { o with arm := .brake, puff := false, platen := .off, lifts := both .off }

/-! ### The arbiter (08 R166) -/

/-- The port whose head burst the arbiter takes: the one that is not the last-served port when both offer. -/
def burstPort (s : State) : Option Side :=
  match s.ports.left.queue, s.ports.right.queue with
  | [], [] => none
  | _ :: _, [] => some .left
  | [], _ :: _ => some .right
  | _ :: _, _ :: _ => some s.link.lastServed.other

/-- A frame given to the transmitter. -/
def send (f : Option UpFrame) (s : State) : State := { s with link := { s.link with sending := f } }

/-- The head burst of a port taken for sending. -/
def takeBurst (b : Side) (s : State) : State :=
  match (s.port b).queue with
  | [] => s
  | q :: rest =>
    let s := s.setPort b { s.port b with queue := rest }
    { s with link := { s.link with sending := some (.burst q), lastServed := b } }

/-- A frame boundary with the link UP: a reply first, then a notice, then a burst (R166). -/
def takeNext (s : State) : State :=
  match s.link.replies with
  | r :: rest => { s with link := { s.link with sending := some (.reply r), replies := rest } }
  | [] =>
    match selection s with
    | some i => markSent i (send (some (.notice (noticeOf s i))) s)
    | none =>
      match burstPort s with
      | some b => takeBurst b s
      | none => send none s

/-- The frame boundary that comes when the transmitter is idle, the link UP and a sender comes to offer a frame
(R166). A command that may bring an offer ends with it (log 10). -/
def idleBoundary (s : State) : State := if s.link.up ∧ s.link.sending = none then takeNext s else s

/-- An event of the cradle or the imagers: taken only while no reset is held (10 R179), and ended by the boundary at
which an idle transmitter takes what the event brought. -/
def event (s : State) (f : State → State) : State := unlessHeld s fun s => idleBoundary (f s)

/-! ### The answer to a directive (08 R158 to R160) -/

/-- What a directive's rule answers: the reply code, the results and the state with its effects. -/
structure Answer where
  code : ReplyCode
  results : List Slot
  state : State
  deriving DecidableEq, Repr

/-- A refusal: it changes nothing (08 R160). -/
def refuse (code : ReplyCode) (s : State) : Answer := ⟨code, [], s⟩

/-- The dark-delay timer restarted with the working dark delay (03 R63): a delay of 0 stops it. -/
def restartDark (s : State) : State :=
  { s with lamps := { s.lamps with
      darkExpired := false
      darkLeft := if s.settings.darkDelay = 0 then none else some (s.settings.darkDelay * 1000) } }

/-- The reply joins the tail of the queue, and OK and OK_CLAMPED restart the dark delay (08 R158). -/
def queueReply (tag : Byte) (code : Slot) (a : Answer) : State :=
  let s := { a.state with link := { a.state.link with
    replies := a.state.link.replies ++ [⟨tag, code, a.code, a.results⟩] } }
  if a.code = .ok ∨ a.code = .okClamped then restartDark s else s

/-- The answer to a directive given: its reply is queued, and an idle transmitter takes it at once (R166). -/
def giveReply (tag : Byte) (code : Slot) (a : Answer) : State := idleBoundary (queueReply tag code a)

/-- Whether the decoder takes a directive that arrives now: the link is UP, no link reset waits and the reply queue
has room (08 R157, R159, R165). -/
def takesDirective (s : State) : Bool :=
  s.link.up && !s.link.resetWaiting && decide (s.link.replies.length < 8)

/-- A directive that arrives (08 R158): none arrives while the link is DOWN; one is dropped while a link reset waits,
and discarded and counted when the reply queue is full (R159, R165); otherwise its rule is applied and its reply
formed. -/
def directive (tag : Byte) (code : Slot) (rule : State → Answer) (s : State) : State :=
  if takesDirective s then giveReply tag code (rule s)
  else if s.link.up && !s.link.resetWaiting then
    { s with link := { s.link with discards := countUp 65535 s.link.discards } }
  else s

end Sys2Proof.Machine
end

