-- ==== Sys2Proof/Machine/Lamps.lean ====
section
/-! DEFINITION. The lamp driver (03): channel states, bank levels and drive duties. -/

namespace Sys2Proof.Machine

/-- The motion states (02 R26). -/
def SeqState.isMotion : SeqState → Bool
  | .present | .platenDown | .platenUp | .pick | .carry | .lay | .home => true
  | .stopped | .held | .handWait | .foldWait | .panelHeld | .fault => false

/-- The rest states (02 R26). -/
def SeqState.isRest : SeqState → Bool
  | .held | .handWait | .foldWait | .panelHeld => true
  | .stopped | .present | .platenDown | .platenUp | .pick | .carry | .lay | .home | .fault => false

/-- The calibration of a lamp channel. -/
def calOf (s : State) (c : Nat) : Calibration := s.settings.calibration.getD c ⟨0, 0, 0, 0⟩

/-- The lock-out of a lamp channel, with its fault kind. -/
def lockoutOf (s : State) (c : Nat) : Option LampFault := (s.lamps.lockouts[c]?).join

/-- READY: rated above 0 and not locked out (03 R56). -/
def channelReady (s : State) (c : Nat) : Bool := (lockoutOf s c).isNone && decide (0 < (calOf s c).rating)

/-- The number of a channel's state: UNCALIBRATED 0, READY 1, LOCKED_OUT 2 (03 R53, 11 R181). -/
def channelStateNum (s : State) (c : Nat) : Nat :=
  if (lockoutOf s c).isSome then 2 else if 0 < (calOf s c).rating then 1 else 0

/-- The lowest channel of a bank: six channels each (03 section 3.1). -/
def firstChannel : Side → Nat
  | .left => 0
  | .right => 6

/-- The six channels of a bank, in order. -/
def bankChannels (b : Side) : List Nat := (List.range 6).map (firstChannel b + ·)

/-- The bank of a channel. -/
def bankOf (c : Nat) : Side := if c < 6 then .left else .right

/-- The test of 03 R59 that makes a bank dark, in the table's order; the second test, a running strobe, stands between
the supply and the others. -/
def darkTest (s : State) (b : Side) : Option DarkCause :=
  if s.lamps.supply ≠ .good then some .supply
  else if (s.lamps.strobe.get b).isSome then none
  else if s.seq.state = .stopped ∨ s.seq.state.isMotion then some .motion
  else if (s.seq.state = .foldWait ∨ s.seq.state = .panelHeld) ∧ s.seq.stackBank ≠ some b then some .fold
  else if s.lamps.darkExpired then some .delay
  else if s.lamps.cut.get b then some .cut
  else none

/-- The level of a bank (03 R59). -/
def bankLevel (s : State) (b : Side) : BankLevel :=
  if (darkTest s b).isSome then .dark
  else if (s.lamps.strobe.get b).isSome then .strobe
  else .preview

/-! ### The scan and the drive (03 R54, R55) -/

/-- The channel that owns the slot at which a bank's scan stands. -/
def slotOwner (s : State) (b : Side) : Nat := firstChannel b + s.lamps.scanSlot.get b

/-- The working preview duty within the duty cap. -/
def cappedPreview (s : State) (c : Nat) : Nat := min (calOf s c).preview (calOf s c).cap

/-- The preview drive duty of a channel as the tables now stand: what its next slot takes (03 R55), and what a dose
tick reads (04 R77). -/
def previewDuty (s : State) (c : Nat) : Nat := if channelReady s c then cappedPreview s c else 0

/-- A slot of a bank's scan starts: its owner's preview duty and cap are taken for its length. -/
def startSlot (b : Side) (i : Nat) (s : State) : State :=
  { s with lamps := { s.lamps with
      scanSlot := s.lamps.scanSlot.set b i
      slotDuty := s.lamps.slotDuty.set b (cappedPreview s (firstChannel b + i)) } }

/-- The strobe duty of a channel in the strobe of its bank, 0 without one. -/
def strobeDuty (s : State) (c : Nat) : Nat :=
  (((s.lamps.strobe.get (bankOf c)).map (·.duties)).getD []).getD (c - firstChannel (bankOf c)) 0

/-- The drive duty of a channel in its slot (03 R55): the one in progress when it owns it, and else its next, as the
tables stand (log 2). -/
def driveDuty (s : State) (c : Nat) : Nat :=
  if channelReady s c then
    match bankLevel s (bankOf c) with
    | .dark => 0
    | .preview => if c = slotOwner s (bankOf c) then s.lamps.slotDuty.get (bankOf c) else cappedPreview s c
    | .strobe => strobeDuty s c
  else 0

/-- The lamp output of a bank in the slot in progress: the channel driven and its drive duty. -/
def lampOutput (s : State) (b : Side) : Nat × Nat := (slotOwner s b, driveDuty s (slotOwner s b))

/-- Whether a channel conducts in part `k` of the 255 equal parts of its bank's slot in progress: from the start of its
own slot for duty/255 of it. -/
def conducts (s : State) (c k : Nat) : Bool :=
  decide (c = (lampOutput s (bankOf c)).1) && decide (k < (lampOutput s (bankOf c)).2)

/-- Whether the lamp driver allows capture (03 R66, R67). -/
def captureAllowed (s : State) : Bool := s.lamps.supply == .good

/-- The strobe of a bank set or ended. -/
def setStrobe (b : Side) (x : Option Strobe) (s : State) : State :=
  { s with lamps := { s.lamps with strobe := s.lamps.strobe.set b x } }

/-- A strobe starts: its scan restarts at slot 1 and the scans to run are t'/600 (03 R54, R60). -/
def startStrobe (b : Side) (g : GateFigures) (s : State) : State :=
  startSlot b 0 (setStrobe b (some ⟨g.duties, g.exposure / 600⟩) s)

/-- In a running strobe of a bank every channel that is not READY is dark from now to the strobe's end (03 R55). -/
def darkenStrobe (b : Side) (s : State) : State :=
  setStrobe b ((s.lamps.strobe.get b).map fun q => { q with
    duties := q.duties.mapIdx fun i d => if channelReady s (firstChannel b + i) then d else 0 }) s

/-- Both banks, after a change of ratings or lock-outs. -/
def darkenStrobes (s : State) : State := darkenStrobe .right (darkenStrobe .left s)

/-- A judged slot finds a fault (03 R57): the channel is locked out, dark for the rest of a running strobe (R55), and
CHANNEL_LOCKOUT raised. A slot below a drive duty of 8 is not judged. -/
def lockOut (c : Nat) (k : LampFault) (s : State) : State :=
  if 8 ≤ driveDuty s c then
    raise .channelLockout [slot c, slot (lampFaultNum k)]
      (darkenStrobes { s with lamps := { s.lamps with lockouts := s.lamps.lockouts.set c (some k) } })
  else s

/-- The dark-delay timer runs out (03 R63). A stopped timer never does. -/
def darkExpiry (s : State) : State :=
  if s.lamps.darkLeft.isSome then { s with lamps := { s.lamps with darkLeft := some 0, darkExpired := true } }
  else s

end Sys2Proof.Machine
end

