-- ==== Sys2Proof/Machine/Dose.lean ====
section
/-! DEFINITION. The dose meter (04): from duties to dose, the charge, the gate's judgement and the preview charge. -/

namespace Sys2Proof.Machine

/-- The effective rating R'_c (04 R73). -/
def effectiveRating (c : Calibration) : Nat := ((c.rating : Int) * (1024 + c.trim) / 1024).toNat

/-- The contribution of a channel at a duty (04 R73). -/
def contribution (c : Calibration) (duty : Nat) : Nat := effectiveRating c * duty / 255

/-- The illuminance of a bank at six duties (04 R73). -/
def illuminance (s : State) (b : Side) (duties : List Nat) : Nat :=
  ((List.range 6).map fun i => contribution (calOf s (firstChannel b + i)) (duties.getD i 0)).sum

/-- The effective duties of a shot at the gate, its strobe duties (04 R74). -/
def strobeDuties (s : State) (b : Side) (duties : List Nat) : List Nat :=
  (List.range 6).map fun i =>
    let c := firstChannel b + i
    if channelReady s c then min (duties.getD i 0) (calOf s c).cap else 0

/-- The effective exposure t' (04 R75): raised to whole scans of 600 µs. -/
def effectiveExposure (t : Nat) : Nat := (t + 599) / 600 * 600

/-- The shot dose D (04 R76). -/
def shotDose (e t : Nat) : Nat := (e * t + 999) / 1000

/-- The gate figures of a shot (04 R81, R82). -/
def gateFigures (s : State) (b : Side) (c : ShotCopy) : GateFigures :=
  let duties := strobeDuties s b c.duties
  let e := illuminance s b duties
  let t := effectiveExposure c.time
  { duties := duties, illuminance := e, exposure := t, dose := shotDose e t }

/-- The preview charge of a bank for one tick (04 R77). -/
def previewCharge (s : State) (b : Side) : Nat :=
  illuminance s b ((bankChannels b).map (previewDuty s)) * 100

/-- The limits of the volume's dose class (04 R78). -/
def doseLimits (s : State) : DoseLimit :=
  s.settings.limits.getD ((s.col.volume.map (·.doseClass)).getD 0) ⟨0, 0⟩

/-- The limits that an amount on a target would pass, none when it fits (04 R81, R83). -/
def refusingLimit (s : State) (t : Target) (amount : Nat) : Option LimitHit :=
  let side := decide ((doseLimits s).side < doseOf s t + amount)
  let vol := decide ((doseLimits s).volume < s.dose.volDose + amount)
  match side, vol with
  | true, true => some .both
  | true, false => some .side
  | false, true => some .volume
  | false, false => none

/-- A charge: one amount to the target's dose and to the volume dose together (04 R80). -/
def charge (t : Target) (amount : Nat) (s : State) : State :=
  if (fieldsOf s t).isSome then
    let s := modifyFields t (fun q => { q with dose := q.dose + amount }) s
    { s with dose := { s.dose with volDose := s.dose.volDose + amount } }
  else s

/-- The room of a target for a preview charge (04 R87). -/
def roomOf (s : State) (t : Target) : Nat :=
  min ((doseLimits s).side - doseOf s t) ((doseLimits s).volume - s.dose.volDose)

/-- The limit that a charge of the whole room has reached (04 R87). -/
def reachedLimit (s : State) (t : Target) : LimitHit :=
  let side := (doseLimits s).side - doseOf s t
  let vol := (doseLimits s).volume - s.dose.volDose
  if side < vol then .side else if vol < side then .volume else .both

/-- The preview-cut mark of a bank is set (03 R62). -/
def setCut (b : Side) (s : State) : State :=
  { s with lamps := { s.lamps with cut := s.lamps.cut.set b true } }

/-- The preview charge of one bank at a tick (04 R86, R87). -/
def tickBank (b : Side) (s : State) : State :=
  if bankLevel s b = .preview then
    match inView s b with
    | none => s
    | some t =>
      let c := previewCharge s b
      let room := roomOf s t
      if c ≤ room then charge t c s
      else
        raise .previewCut ([slot (sideNum b)] ++ targetSlots t ++ [slot room, slot (reachedLimit s t).num])
          (setCut b (charge t room s))
  else s

/-- A dose tick (04 R86): the bank `first` is charged first, and the phase of the tick starts afresh. -/
def tickDose (first : Side) (s : State) : State :=
  let s := tickBank first.other (tickBank first s)
  { s with dose := { s.dose with tickMs := 0 } }

end Sys2Proof.Machine
end

