-- ==== Sys2Proof/Machine/Ports.lean ====
section
/-! DEFINITION. The imager ports (06): arming, the frame in reception, its lines, its end and its verdict, and the
burst queue. What the exposure channel does with a verdict is in Channels.lean. -/

namespace Sys2Proof.Machine

/-! ### The burst queue (06 R115, R122, R124) -/

def Burst.isLine : Burst → Bool
  | .line .. => true
  | _ => false

/-- The lines in the burst queue. -/
def linesQueued (p : Port) : Nat := p.queue.countP Burst.isLine

/-- The header and trailer bursts in the burst queue. -/
def markersQueued (p : Port) : Nat := p.queue.countP fun b => !b.isLine

/-- The port's burst queue with a burst at its tail. -/
def Port.enqueue (p : Port) (b : Burst) : Port := { p with queue := p.queue ++ [b] }

/-! ### Headers (06 R116, R119, R120) -/

/-- The header made ABANDONED (06 R116). -/
def Header.abandon (h : Header) : Header := { h with status := .abandoned }

/-- The header made EXPIRED; an ABANDONED one stays so (06 R116). -/
def Header.expire (h : Header) : Header :=
  if h.status = .abandoned then h else { h with status := .expired }

/-- Whether the header's target is a side, which the platen watch is for (06 R126). -/
def Header.watched (h : Header) : Bool :=
  match h.target with
  | .side _ _ => true
  | .panel _ _ => false

/-- The port's armed header changed. -/
def Port.mapArmed (p : Port) (f : Header → Header) : Port := { p with armed := p.armed.map f }

/-- The header taken back from the port (06 R119). -/
def Port.takeBack (p : Port) : Port :=
  match p.state with
  | .idle => p
  | .armed => { p with armed := none, state := .idle }
  | .receiving => if p.waiting.isSome then { p with waiting := none } else p.mapArmed .abandon

/-- The header completed with the gate figures and the take count (06 R120). In ARMED the platen watch of a side
begins with the platen-up level as it stands (R126). -/
def Port.complete (p : Port) (g : GateFigures) (takes : Nat) (platenUp : Bool) : Port :=
  match p.state with
  | .idle => p
  | .armed => p.mapArmed fun h => { h with fired := some (g, takes), moved := h.watched && platenUp }
  | .receiving => p.mapArmed fun h => { h with fired := some (g, takes) }

/-- Platen up arrives at active: the moved mark of a watched header or frame (06 R126). -/
def Port.platenRose (p : Port) : Port :=
  match p.state with
  | .idle => p
  | .armed => p.mapArmed fun h => if h.watched && h.fired.isSome then { h with moved := true } else h
  | .receiving =>
    if (p.armed.map (·.watched)).getD false then { p with frame := p.frame.map ({ · with moved := true }) } else p

/-- Both ports at platen up's arrival. -/
def platenRose (s : State) : State :=
  { s with ports := ⟨s.ports.left.platenRose, s.ports.right.platenRose⟩ }

/-! ### The start of a frame (06 R121, R122) -/

/-- The frame record at a frame's start. -/
def Frame.fresh (number : Nat) (g : Geometry) (moved : Bool) (limit : Nat) : Frame where
  number := number
  geometry := g
  arrived := 0
  dropped := 0
  bad := 0
  excess := 0
  sum := 0
  n := 0
  clips := 0
  crc := 0
  moved := moved
  stallLimit := limit
  stallLeft := limit

/-- The next frame number: 16 bits, wrapping to 0. -/
def nextFrameNo (n : Nat) : Nat := (n + 1) % 65536

/-- Reception begins against header `h`. -/
def beginFrame (b : Side) (h : Header) (s : State) : State :=
  let p := s.port b
  let number := nextFrameNo p.frameNo
  let g := s.settings.geometry.get b
  let moved := h.watched && (if h.fired.isSome then h.moved else s.seq.levels.platenUp)
  s.setPort b (({ p with
    state := .receiving
    frameNo := number
    frame := some (.fresh number g moved s.settings.frameTimeout) } : Port).enqueue (.header b number g h))

/-- A frame start that finds no frame in reception (06 R121): unsolicited, refused or begun. A refused one
has no frame number, and its LINE_OVERRUN carries 0 in that slot and the cause in the fourth (log 47). -/
def startFrame (b : Side) (s : State) : State :=
  let p := s.port b
  match p.armed with
  | none => s.setPort b { p with unsolicited := countUp 65535 p.unsolicited }
  | some h =>
    if markersQueued p + 2 ≤ 4 then beginFrame b h s
    else raise .lineOverrun [slot (sideNum b), 0, 0, 1]
      (s.setPort b { p with refused := countUp 65535 p.refused })

/-! ### Lines (06 R123 to R125) -/

/-- The pixels of a line in the window columns. -/
def windowPixels (g : Geometry) (pixels : List Pixel) : List Pixel :=
  (pixels.drop g.x0).take (g.x1 + 1 - g.x0)

/-- A good line measured, when its number lies in the window rows (06 R125). -/
def Frame.measure (f : Frame) (number : Nat) (pixels : List Pixel) : Frame :=
  if f.geometry.y0 ≤ number ∧ number ≤ f.geometry.y1 then
    let ps := windowPixels f.geometry pixels
    { f with
      sum := f.sum + (ps.map (·.toNat)).sum
      n := f.n + ps.length
      clips := f.clips + ps.countP fun p => decide (f.geometry.clipLevel ≤ p.toNat) }
  else f

/-- The frame record after an admitted line (06 R123): the CRC over the pixels forwarded, and bad or measured. -/
def Frame.admitLine (f : Frame) (number : Nat) (pixels : List Pixel) : Frame :=
  let f := { f with crc := crcMore f.crc (pixelBytes (pixels.take f.geometry.width)) }
  if pixels.length = f.geometry.width then f.measure number pixels else { f with bad := f.bad + 1 }

/-- A line taken in RECEIVING (06 R123): it counts as arrived and restarts the stall timer, and is then excess,
dropped for a full FIFO, or admitted. -/
def takeLine (b : Side) (pixels : List Pixel) (s : State) : State :=
  let p := s.port b
  match p.frame with
  | none => s
  | some f0 =>
    let number := f0.arrived
    let f := { f0 with arrived := f0.arrived + 1, stallLeft := f0.stallLimit }
    if f.geometry.height ≤ number then s.setPort b { p with frame := some { f with excess := f.excess + 1 } }
    else if 64 ≤ linesQueued p then
      let s' := s.setPort b { p with frame := some { f with dropped := f.dropped + 1 } }
      if f.dropped = 0 then raise .lineOverrun [slot (sideNum b), slot f.number, slot number, 0] s' else s'
    else s.setPort b (({ p with frame := some (f.admitLine number pixels) } : Port).enqueue
      (.line b f.number number (pixels.take f.geometry.width)))

/-! ### The end of a frame (06 R128, R129) -/

/-- The mean of a frame. -/
def Frame.mean (f : Frame) : Nat := if f.n = 0 then 0 else f.sum / f.n

/-- The clip per-mille of a frame. -/
def Frame.clipPerMille (f : Frame) : Nat := if f.n = 0 then 1000 else f.clips * 1000 / f.n

/-- The verdict: the first that applies (06 R129). -/
def verdictOf (h : Header) (f : Frame) : Verdict :=
  if h.status = .abandoned then .abandoned
  else if h.status = .expired then .late
  else if f.moved then .moved
  else if f.arrived < f.geometry.height ∨ 1 ≤ f.bad then .truncated
  else if 1 ≤ f.dropped then .overrun
  else if f.mean < h.lo then .under
  else if h.hi < f.mean then .over
  else if h.clipLimit < f.clipPerMille then .clipped
  else .good

/-- The trailer of a frame (06 R128). -/
def trailerOf (b : Side) (h : Header) (f : Frame) (c : EndCause) : Trailer where
  port := b
  number := f.number
  verdict := verdictOf h f
  cause := c
  mean := f.mean
  clipPerMille := f.clipPerMille
  n := f.n
  arrived := f.arrived
  dropped := f.dropped
  bad := f.bad
  excess := f.excess
  forwarded := f.arrived - f.dropped - f.excess
  crc := f.crc

/-- The port lets go of the armed header, and a waiting header becomes the armed header (06 R128 step 5). -/
def Port.release (p : Port) : Port :=
  match p.waiting with
  | some w => { p with armed := some w, waiting := none, frame := none, state := .armed }
  | none => { p with armed := none, frame := none, state := .idle }

/-! ### Discard (06 R132) -/

/-- DISCARD VOLUME at a port. -/
def Port.discard (p : Port) : Port := { p.mapArmed .abandon with waiting := none }

end Sys2Proof.Machine
end

