-- ==== Sys2Proof/Machine/Channels.lean ====
section
/-! DEFINITION. The exposure channels (05): taking a target up, arming, firing, outcomes, and what withdraws or ends
their work. -/

namespace Sys2Proof.Machine

/-- At rest: IDLE or DONE (02 R35, 05 R95). -/
def Channel.atRest (c : Channel) : Bool := c.state == .idle || c.state == .done

/-- Both channels at rest. -/
def bothAtRest (s : State) : Bool := s.chans.left.atRest && s.chans.right.atRest

/-- The opening is held (02 R35). -/
def isHeld (s : State) : Bool :=
  s.seq.hold && (s.seq.state == .held || s.seq.state == .panelHeld) && (s.col.volState == .scanning)

/-! ### Settling (05 R105) -/

/-- The channel reports its current target as settled and is DONE. -/
def settleChannel (b : Side) (after : TState) (s : State) : State :=
  match (s.chan b).target with
  | none => s
  | some t => (settle t after s).setChan b
      { s.chan b with state := .done, gate := none, kept := none, timeout := none }

/-! ### Arming (05 R98) -/

/-- The recipe copy of a shot (05 R95). -/
def copyOf (r : Recipe) (shot : Nat) : ShotCopy :=
  let q := r.shots.getD (shot - 1) ⟨[], 0⟩
  { duties := q.duties, time := q.time, lo := r.lo, hi := r.hi, clipLimit := r.clipLimit, takeLimit := r.takeLimit,
    shotCount := r.shotCount }

/-- The shot header of the channel's shot (05 R98). -/
def headerOf (s : State) (b : Side) (t : Target) (c : ShotCopy) : Header where
  serial := s.col.serial
  bank := b
  target := t
  cls := classOf s t
  shot := (s.chan b).shot
  shotCount := c.shotCount
  take := (s.chan b).takes + 1
  lo := c.lo
  hi := c.hi
  clipLimit := c.clipLimit
  status := .live
  fired := none
  moved := false

/-- The port takes a header handed to it (06 R119): at once in IDLE and ARMED, the channel going on to GATING; in
RECEIVING it waits, and the channel stays in ARMING. -/
def handHeader (b : Side) (h : Header) (s : State) : State :=
  let p := s.port b
  match p.state with
  | .idle | .armed =>
    (s.setPort b { p with armed := some h, state := .armed }).setChan b { s.chan b with state := .gating }
  | .receiving =>
    (s.setPort b { p with waiting := some h }).setChan b { s.chan b with state := .arming }

/-- Entering ARMING (05 R98): the completion test, and then the recipe copy and the header. -/
def arm (b : Side) (s : State) : State :=
  match (s.chan b).target with
  | none => s
  | some t =>
    let r := recipeOf s t
    if r.shotCount < (s.chan b).shot then settleChannel b .captured s
    else
      let c := copyOf r (s.chan b).shot
      handHeader b (headerOf s b t c) (s.setChan b { s.chan b with copy := some c })

/-- Taking a target up as a new visit (05 R96). -/
def takeUp (b : Side) (t : Target) (s : State) : State :=
  arm b (s.setChan b { Channel.afterReset with state := .arming, target := some t, shot := 1 })

/-- A channel tests whether it may take up a target or arm again (05 R96, R97). -/
def offer (b : Side) (s : State) : State :=
  if isHeld s && captureAllowed s then
    match (s.chan b).state, (s.chan b).target with
    | .idle, some t => if isPending s t then arm b s else s.setChan b { s.chan b with state := .done }
    | .idle, none | .done, _ =>
      match inView s b with
      | some t => if isPending s t then takeUp b t s else s
      | none => s
    | _, _ => s
  else s

/-- Both channels, left and then right. -/
def offerBoth (s : State) : State := offer .right (offer .left s)

/-! ### Outcomes (05 R102 to R108) -/

/-- The channel goes IDLE between shots (05 R97). -/
def betweenShots (b : Side) (s : State) : State :=
  s.setChan b { s.chan b with state := .idle, gate := none, kept := none, timeout := none }

/-- An accepted frame (05 R103): stamps, the next shot index, which after the last shot is one past it (DEDUCED, log 40),
and the completion test. The next shot is armed by `offer`. -/
def acceptShot (b : Side) (s : State) : State :=
  match (s.chan b).target with
  | none => s
  | some t =>
    let s := betweenShots b (reportAccepted t s)
    let s := s.setChan b { s.chan b with shot := (s.chan b).shot + 1, takes := 0 }
    if (recipeOf s t).shotCount < (s.chan b).shot then settleChannel b .captured s else s

/-- A rejection (05 R104): the same shot is owed again, or the target is REJECTED. -/
def rejectShot (b : Side) (why : Rejection) (s : State) : State :=
  match (s.chan b).target with
  | none => s
  | some t =>
    if (s.chan b).takes < (((s.chan b).copy).map (·.takeLimit)).getD 0 then betweenShots b s
    else raise .sideRejected (targetSlots t ++ [slot (s.chan b).shot, slot why.num]) (settleChannel b .rejected s)

/-- The rejection that a verdict stands for, none for GOOD, LATE and ABANDONED (05 R102, R107). -/
def Verdict.rejection : Verdict → Option Rejection
  | .moved => some .moved
  | .truncated => some .truncated
  | .overrun => some .overrun
  | .under => some .under
  | .over => some .over
  | .clipped => some .clipped
  | .abandoned | .late | .good => none

/-- The outcome of a shot judged by its verdict (05 R102). -/
def judgeShot (b : Side) (v : Verdict) (s : State) : State :=
  match v.rejection with
  | some why => rejectShot b why s
  | none => if v = .good then acceptShot b s else s

/-- A verdict that the port hands its channel (05 R102, R107, R108). -/
def takeVerdict (b : Side) (v : Verdict) (s : State) : State :=
  if v = .late ∨ v = .abandoned then s
  else match (s.chan b).state with
    | .awaiting => judgeShot b v (s.setChan b { s.chan b with timeout := none })
    | .firing => s.setChan b { s.chan b with kept := some v }
    | .idle | .arming | .gating | .done => s

/-- The port's armed header is abandoned. -/
def abandonHeader (b : Side) (s : State) : State := s.setPort b ((s.port b).mapArmed .abandon)

/-- The report CUT (05 R101): the trigger is lowered, the header abandoned, and the outcome is SUPPLY_CUT. -/
def shotCut (b : Side) (s : State) : State :=
  if (s.chan b).state = .firing then
    rejectShot b .supplyCut (abandonHeader b (s.setChan b { s.chan b with trigger := false, kept := none }))
  else s

/-- The report DONE (05 R101): AWAITING, with the frame timeout running, or a verdict kept in FIRING judged at once
(R108). -/
def shotDone (b : Side) (s : State) : State :=
  if (s.chan b).state = .firing then
    let c := { s.chan b with state := ChanState.awaiting, trigger := false }
    match c.kept with
    | some v => judgeShot b v (s.setChan b { c with kept := none })
    | none => s.setChan b { c with timeout := some s.settings.frameTimeout }
  else s

/-- The last scan of a running strobe ends (03 R61). Brought by its command before then, it leaves the bank's scan at the
slot where it stands, a point that the spec leaves open (log 2). -/
def endStrobe (b : Side) (s : State) : State :=
  if (s.lamps.strobe.get b).isSome then shotDone b (setStrobe b none s) else s

/-- A running strobe is ended by a supply loss (03 R66). -/
def cutStrobe (b : Side) (s : State) : State :=
  if (s.lamps.strobe.get b).isSome then shotCut b (setStrobe b none s) else s

/-- The frame timeout expires in AWAITING (05 R106). -/
def expireFrame (b : Side) (s : State) : State :=
  let c := s.chan b
  match c.state, c.timeout, c.target with
  | .awaiting, some _, some t =>
    let s := s.setPort b ((s.port b).mapArmed .expire)
    rejectShot b .missing
      (raise .frameMissing ([slot (sideNum b)] ++ targetSlots t ++ [slot c.shot]) s)
  | _, _, _ => s

/-! ### Firing (05 R99, R100) -/

/-- Entering FIRING: the take, the completed header, the strobe instruction and the trigger, all at one moment. -/
def fire (b : Side) (t : Target) (g : GateFigures) (s : State) : State :=
  let s := reportTake t s
  let takes := ((fieldsOf s t).map (·.takes)).getD 0
  let s := s.setChan b { s.chan b with
    state := .firing, takes := (s.chan b).takes + 1, gate := some g, trigger := true }
  let s := s.setPort b ((s.port b).complete g takes s.seq.levels.platenUp)
  if captureAllowed s then startStrobe b g s else shotCut b s

/-- The dose meter takes a gate request (04 R81 to R83): it judges the shot and, when it passes, charges it before it
fires. -/
def judgeGate (b : Side) (s : State) : State :=
  match (s.chan b).state, (s.chan b).target, (s.chan b).copy with
  | .gating, some t, some c =>
    let g := gateFigures s b c
    match refusingLimit s t g.dose with
    | none => fire b t g (charge t g.dose s)
    | some hit =>
      raise .doseWithheld (targetSlots t ++ [slot (sideNum b), slot g.dose, slot hit.num])
        (settleChannel b .withheld (s.setPort b (s.port b).takeBack))
  | _, _, _ => s

/-! ### Withdrawal, the end of a visit, and discard (05 R109, R112, R113) -/

/-- A withdrawal of the hold at one channel (05 R109). -/
def withdrawChannel (b : Side) (s : State) : State :=
  match (s.chan b).state with
  | .arming | .gating => betweenShots b (s.setPort b (s.port b).takeBack)
  | .idle | .firing | .awaiting | .done => s

/-- The hold is withdrawn (02 R35). -/
def withdrawHold (s : State) : State :=
  withdrawChannel .right (withdrawChannel .left (s.setSeq { s.seq with hold := false, waiting := false }))

/-- The end of a channel's visit (05 R113): found at rest, it goes IDLE and lets go of what it held. -/
def endVisit (b : Side) (s : State) : State :=
  if (s.chan b).atRest then s.setChan b .afterReset else s

/-- The visits of both channels end (02 R35). -/
def endVisits (s : State) : State := endVisit .right (endVisit .left s)

/-- DISCARD VOLUME at a channel (05 R112). The header of a channel in GATING is taken back as R112 and 06 R119 say, so
that its port goes from ARMED to IDLE before 06 R132 looks for an armed header (log 45). -/
def discardChannel (b : Side) (s : State) : State :=
  let s := match (s.chan b).state with
    | .idle | .done => s
    | .arming | .gating => s.setPort b (s.port b).takeBack
    | .firing => abandonHeader b (setStrobe b none s)
    | .awaiting => abandonHeader b s
  s.setChan b .afterReset

/-- The end of a frame in reception (06 R128), without the hand-over of the verdict: the trailer is queued, the armed
header let go, and a channel in ARMING learns that its waiting header has been taken. Answers the verdict. -/
def closeFrame (b : Side) (cause : EndCause) (s : State) : State × Option Verdict :=
  let p := s.port b
  match p.state, p.frame, p.armed with
  | .receiving, some f, some h =>
    let t := trailerOf b h f cause
    let s' := s.setPort b (p.enqueue (.trailer t)).release
    let s' := if p.waiting.isSome ∧ (s.chan b).state = .arming then
        s'.setChan b { s.chan b with state := .gating } else s'
    (s', some t.verdict)
  | _, _, _ => (s, none)

/-- The end of a frame in reception, its verdict handed to the exposure channel (06 R128). -/
def endFrame (b : Side) (cause : EndCause) (s : State) : State :=
  match closeFrame b cause s with
  | (s', some v) => takeVerdict b v s'
  | (s', none) => s'

/-- A frame start (06 R121): in RECEIVING the frame in reception is ended first, and the start is taken in the state
that end leaves the port in; the ended frame's verdict is taken after it (log 19). -/
def frameStarts (b : Side) (s : State) : State :=
  match closeFrame b .nextStart s with
  | (s', some v) => takeVerdict b v (startFrame b s')
  | (s', none) => startFrame b s'

end Sys2Proof.Machine
end

