-- ==== Sys2Proof/Machine/Motions.lean ====
section
/-! DEFINITION. The turn sequencer's motions (02 sections 2.3 to 2.8): entering each state, completing and failing
each motion, and the one reaction in which the channels are offered the targets in view and the sequencer tests its
safe point, its settled opening and its panel.

No function here calls itself through another: a chain of motions that complete on entry always ends, since PICK waits
for vacuum and LAY for its loss, and a mispick uses up one of at most `pickRetries` retries (log 13). -/

namespace Sys2Proof.Machine

/-! ### Entering a state -/

/-- The sequencer goes to a state. Leaving HELD or PANEL_HELD ends both visits and the hold (02 R35); the preview cuts
follow the view (03 R62). -/
def goto (st : SeqState) (s : State) : State :=
  let leaving := (s.seq.state == .held || s.seq.state == .panelHeld) && s.seq.state != st
  let s' := if leaving then endVisits s else s
  reseat { s'.seq with
    state := st
    hold := s'.seq.hold && !leaving
    holdGiven := s'.seq.holdGiven && !leaving
    waiting := s'.seq.waiting && !leaving } s'

/-- The time limit of a motion (02 R30). -/
def motionLimit (s : State) (m : Motion) : Nat := s.settings.motionLimits.getD m.num 0

def Motion.state : Motion → SeqState
  | .present => .present
  | .platenDown => .platenDown
  | .platenUp => .platenUp
  | .pick => .pick
  | .carry => .carry
  | .lay => .lay
  | .home => .home

/-- The motion of a motion state. -/
def SeqState.motion : SeqState → Option Motion
  | .present => some .present
  | .platenDown => some .platenDown
  | .platenUp => some .platenUp
  | .pick => some .pick
  | .carry => some .carry
  | .lay => some .lay
  | .home => some .home
  | .stopped | .held | .handWait | .foldWait | .panelHeld | .fault => none

/-- A motion state is entered with its time limit and its outputs (02 R30, R31). -/
def enterMotion (m : Motion) (drive : Outputs → Outputs) (s : State) : State :=
  let s := goto m.state s
  s.setSeq { s.seq with motionLeft := motionLimit s m, outputs := drive s.seq.outputs }

/-- Brake every drive (02 R24). -/
def brakeEvery (s : State) : State := s.setOutputs s.seq.outputs.brakeAll

/-- The vacuum valve set OFF. -/
def vacuumOff (s : State) : State := s.setOutputs { s.seq.outputs with vacuum := false }

/-! ### The pointer (02 R28, R29) -/

/-- The leaf that a turn carries, none when the turn is not possible (02 R29). -/
def turnedLeaf (s : State) : Dir → Option Nat
  | .forward => if s.seq.p < leafCount s then some s.seq.p else none
  | .backward => presentBefore s s.seq.p

/-- Where a turn moves p (02 R29); p stays when the turn is not possible. -/
def pointerAfter (s : State) : Dir → Nat
  | .forward => presentAfter s s.seq.p
  | .backward => (presentBefore s s.seq.p).getD s.seq.p

/-- p moves and the stay ends: both banks' marks are cleared (02 R28). -/
def movePointer (p : Nat) (s : State) : State :=
  reseat { s.seq with p := p, foldMark := both false, settledHere := both false } s

/-- The direction of the turn in flight. -/
def turnDir (s : State) : Dir := (s.seq.turn.map (·.dir)).getD s.seq.dir

/-- The source side of a turn (02 R29). -/
def sourceSide (s : State) : Side :=
  match turnDir s with
  | .forward => s.turning
  | .backward => s.turning.other

/-- The destination side of a turn. -/
def destSide (s : State) : Side := (sourceSide s).other

/-- The arm driven toward a far position. -/
def armToward : Side → ArmDrive
  | .left => .towardLeft
  | .right => .towardRight

/-- The arm driven toward the spine: away from the far position that last arrived at active, or toward the left when
none has (02 section 2.1). -/
def towardSpine (s : State) : ArmDrive :=
  match s.seq.lastFar with
  | some side => armToward side.other
  | none => .towardLeft

/-! ### Pauses and faults -/

/-- The volume goes from SCANNING to PAUSED (02 R47). -/
def pauseVolume (cause : PauseCause) (s : State) : State :=
  if s.col.volState = .scanning then
    let s := withdrawHold s
    raise .paused [slot cause.num]
      { s with
        col := { s.col with volState := .paused }
        seq := { s.seq with pendingPause := none } }
  else s

/-- The turn that the motion in flight belongs to: that of a machine turn or a hand turn's raising (02 R26, R31). -/
def turnOfMotion (s : State) : Option Turn :=
  match s.seq.kind with
  | some .machineTurn | some .handRaise => s.seq.turn
  | some .foldRaise | some .restore | none => none

/-- The owed turn of a fault: the turn's direction when the fault comes before p was moved, none otherwise
(02 R50). -/
def owedAt (s : State) (m : Motion) : Option Dir :=
  match m with
  | .platenUp | .pick | .carry | .lay => (turnOfMotion s).map (·.dir)
  | .home | .present | .platenDown => none

/-- The sequencer brakes every drive, goes to FAULT with a fault record, and the volume goes to PAUSED (02 R30,
R47). -/
def enterFault (r : FaultRecord) (s : State) : State :=
  let s := goto .fault (brakeEvery s)
  pauseVolume .fault (s.setSeq { s.seq with fault := some r })

/-- The fault of a motion, with MOTION_FAULT raised (02 R30). -/
def motionFault (m : Motion) (cause : FaultCause) (s : State) : State :=
  enterFault
    { motion := m, cause := cause, turned := (turnOfMotion s).map (·.leaf), owed := owedAt s m, resolution := .none }
    (raise .motionFault [slot m.num, slot cause.num, slot s.seq.p] s)

/-- The fault of a double turn at LAY, with DOUBLE_TURN raised (02 R34). -/
def doubleFault (s : State) : State :=
  enterFault
    { motion := .lay, cause := .doubleTurn, turned := (turnOfMotion s).map (·.leaf), owed := some (turnDir s),
      resolution := .none }
    (raise .doubleTurn [slot (((turnOfMotion s).map (·.leaf)).getD s.seq.p), slot s.seq.edges] s)

/-! ### From HOME to HELD -/

/-- Entering HELD (02 R35, R46): a pending pause is taken before the hold is granted. -/
def grantHold (s : State) : State := s.setSeq { s.seq with hold := true, holdGiven := true, waiting := false }

def enterHeld (s : State) : State :=
  let s := goto .held s
  let s := s.setSeq { s.seq with kind := none, turn := none, motionLeft := 0 }
  match s.seq.pendingPause with
  | some cause => if bothAtRest s then pauseVolume cause s else grantHold s
  | none => grantHold s

/-- PLATEN_DOWN completes (02 R31). -/
def platenDownDone (s : State) : State :=
  enterHeld (s.setOutputs { s.seq.outputs with platen := .off })

/-- Entering PLATEN_DOWN, which completes on entry when the platen is down. -/
def enterPlatenDown (s : State) : State :=
  let s := enterMotion .platenDown ({ · with platen := .down }) s
  if s.seq.levels.platenDown then platenDownDone s else s

/-- A lift in PRESENT: raised until its own contact is active (02 R31). -/
def liftFor (contact : Bool) : LiftDrive := if contact then .off else .raise

/-- Entering PRESENT, which completes when both contacts are active. -/
def enterPresent (s : State) : State :=
  let s := enterMotion .present
    ({ · with lifts := ⟨liftFor s.seq.levels.leftContact, liftFor s.seq.levels.rightContact⟩ }) s
  if s.seq.levels.leftContact && s.seq.levels.rightContact then enterPlatenDown s else s

/-- HOME completes. -/
def homeDone (s : State) : State := enterPresent (s.setOutputs { s.seq.outputs with arm := .brake })

/-- Entering HOME: the arm toward the spine until HOME is active. -/
def enterHome (s : State) : State :=
  let s := enterMotion .home ({ · with arm := towardSpine s }) s
  if s.seq.levels.home then homeDone s else s

/-! ### The machine turn (02 R31 to R34) -/

/-- LAY completes: the turn is done and p moves, or a double turn stands (02 R34). -/
def layDone (s : State) : State :=
  if s.seq.double then doubleFault s else enterHome (movePointer (pointerAfter s (turnDir s)) s)

/-- Entering LAY: the arm braked and the vacuum valve OFF. -/
def enterLay (s : State) : State :=
  let s := enterMotion .lay ({ · with arm := .brake, vacuum := false }) s
  if s.seq.levels.vacuumGood then s else layDone s

/-- Entering CARRY, with the arm toward the destination; the count stands as it is. -/
def driveCarry (s : State) : State := enterMotion .carry ({ · with arm := armToward (destSide s), puff := false }) s

/-- Entering PICK: toward the source far position; on its arrival, or at once when it is active, the arm is braked
and vacuum and air come on (02 R31). -/
def drivePick (s : State) : State :=
  let side := sourceSide s
  if s.seq.levels.get (farInput side) then
    enterMotion .pick ({ · with arm := .brake, vacuum := true, puff := true }) s
  else enterMotion .pick ({ · with arm := armToward side }) s

/-- What every mispick does first: vacuum and air OFF, the arm braked (02 R33). -/
def dropLeaf (s : State) : State :=
  s.setOutputs { s.seq.outputs with vacuum := false, puff := false, arm := .brake }

/-- PICK completes and CARRY is entered from it: the edge count is 0 and the double mark clear (02 R32). -/
def carryFromPick (s : State) : State :=
  driveCarry (s.setSeq { s.seq with
    edges := 0, double := false, edgesFixed := false, outputs := { s.seq.outputs with puff := false } })

/-- The far position of the destination is active. -/
def atDest (s : State) : Bool := s.seq.levels.get (farInput (destSide s))

/-- A retry after a mispick: its leaf dropped, one more on the retry count, and PICK driven again (02 R33). -/
def retryPick (s : State) : State :=
  let s := dropLeaf s
  drivePick (s.setSeq { s.seq with retries := s.seq.retries + 1 })

/-- PICK completes with `n` retries left. A CARRY whose far position is active completes on entry with no edge counted,
which is a mispick; its retry enters PICK again, which completes on entry while vacuum is good. -/
def pickDone : (n : Nat) → State → State
  | 0, s =>
    let s := carryFromPick s
    if atDest s then motionFault .carry .mispick (dropLeaf s) else s
  | n + 1, s =>
    let s := carryFromPick s
    if atDest s then
      let s := retryPick s
      if s.seq.levels.vacuumGood then pickDone n s else s
    else s

/-- The retries that the pick-retry setting leaves (02 R33): none once the retry count equals or exceeds it. -/
def retriesLeft (s : State) : Nat := s.settings.pickRetries - s.seq.retries

/-- Entering PICK, which completes on entry when vacuum is good (02 R30). -/
def enterPick (s : State) : State :=
  let s := drivePick s
  if s.seq.levels.vacuumGood then pickDone (retriesLeft s) s else s

/-- A mispick of PICK or CARRY: a retry, or the fault MISPICK (02 R33). -/
def mispick (m : Motion) (s : State) : State :=
  let s := dropLeaf s
  if s.seq.retries < s.settings.pickRetries then
    enterPick (s.setSeq { s.seq with retries := s.seq.retries + 1 })
  else motionFault m .mispick s

/-- CARRY completes and the edge count is judged (02 R32). -/
def carryDone (s : State) : State :=
  if s.seq.edges = 0 then mispick .carry s
  else enterLay (s.setSeq { s.seq with double := decide (2 ≤ s.seq.edges) })

/-- CARRY entered again with its count kept (02 R50), completing on entry when its far position is active. -/
def retryCarry (s : State) : State :=
  let s := driveCarry s
  if atDest s then carryDone s else s

/-! ### Rest states -/

/-- Entering HAND_WAIT with an owed turn, HAND_WAIT raised with the leaf and the owed turn (02 R40, R50). -/
def enterHandWait (leaf : Nat) (owed : Option Dir) (s : State) : State :=
  let s := goto .handWait s
  raise .handWait [slot leaf, slot (dirOptNum owed)]
    (s.setSeq { s.seq with owed := owed, kind := none, turn := none, motionLeft := 0 })

/-- Entering FOLD_WAIT. -/
def enterFoldWait (s : State) : State :=
  let s := goto .foldWait s
  s.setSeq { s.seq with kind := none, turn := none, motionLeft := 0 }

/-- PLATEN_UP completes, and the next state of its sequence is entered (02 R31). -/
def platenUpDone (s : State) : State :=
  let s := s.setOutputs { s.seq.outputs with platen := .off }
  match s.seq.kind with
  | some .machineTurn => enterPick s
  | some .handRaise =>
    enterHandWait ((s.seq.turn.map (·.leaf)).getD s.seq.p) (s.seq.turn.map (·.dir)) s
  | some .foldRaise => enterFoldWait s
  | some .restore => enterHome s
  | none => s

/-- Entering PLATEN_UP for a sequence kind: a turn also lowers both lifts and starts its retry count at 0 (02 R31,
R33). -/
def enterPlatenUp (k : SeqKind) (s : State) : State :=
  let isTurn := k == .machineTurn || k == .handRaise
  let s := s.setSeq { s.seq with kind := some k, retries := if isTurn then 0 else s.seq.retries }
  let s := enterMotion .platenUp
    (fun o => { o with platen := .up, lifts := if isTurn then both .lower else o.lifts }) s
  if s.seq.levels.platenUp then platenUpDone s else s

/-! ### Choosing the next turn (02 R37 to R40, R42) -/

/-- The sequencer makes one turn in a direction, by hand or by the arm (02 R29); nothing when it is not possible. -/
def beginTurn (d : Dir) (s : State) : State :=
  match turnedLeaf s d with
  | none => s
  | some leaf =>
    let byHand := (leafAt s leaf).handTurn || s.seq.mode == .hand
    enterPlatenUp (if byHand then .handRaise else .machineTurn) (s.setSeq { s.seq with turn := some ⟨d, leaf⟩ })

/-- Whether some PENDING side lies ahead in a direction (02 R38). -/
def pendingAhead (s : State) (d : Dir) : Bool :=
  (allSides s).any fun t =>
    match t with
    | .side leaf f => isPending s t &&
        (match d with
          | .forward => decide (s.seq.p < openingOf s leaf f)
          | .backward => decide (openingOf s leaf f < s.seq.p))
    | .panel _ _ => false

def Dir.opposite : Dir → Dir
  | .forward => .backward
  | .backward => .forward

/-- The AUTO decision (02 R38), which HAND mode makes too. -/
def decideTurn (s : State) : State :=
  if pendingAhead s s.seq.dir then beginTurn s.seq.dir s
  else if pendingAhead s s.seq.dir.opposite then
    beginTurn s.seq.dir.opposite (s.setSeq { s.seq with dir := s.seq.dir.opposite })
  else pauseVolume .volumeEnd (raise .volumeEnd [slot s.seq.p] s)

/-- A pending step carried out (02 R39): cleared without a turn when the turn is no longer possible. -/
def carryStep (d : Dir) (s : State) : State :=
  let s := s.setSeq { s.seq with pendingStep := none }
  if (turnedLeaf s d).isSome then beginTurn d (s.setSeq { s.seq with dir := d }) else s

/-- The fold-out that a bank would open (02 R42): the reference on the face in view, the fold-out mark clear, and a
PENDING panel below it or the settled-here mark set. -/
def foldoutToOpen (s : State) (b : Side) : Option Nat :=
  match inView s b with
  | some (.side leaf f) =>
    match (leafAt s leaf).foldout with
    | some (face, g) =>
      if face = f ∧ s.seq.foldMark.get b = false ∧ (pendingBelow s g ∨ s.seq.settledHere.get b = true) then some g
      else none
    | none => none
  | _ => none

/-- A fold-out pushed on the stack as the sheet being worked; the bank's preview cut is cleared (02 R42, 03 R62). -/
def pushFoldout (f : Nat) (s : State) : State :=
  let s := reseat { s.seq with stack := ⟨f, 1, .presentNext⟩ :: s.seq.stack } s
  match s.seq.stackBank with
  | some b => { s with lamps := { s.lamps with cut := s.lamps.cut.set b false } }
  | none => s

/-- The opening of a fold-out (02 R42): the mark is set and the tally asked to re-offer it; when a panel is PENDING it
is pushed and the platen raised. Answers none when it is not opened, with the state the test leaves. -/
def openFoldout (b : Side) (f : Nat) (s : State) : State × Bool :=
  let s := reOffer f (s.setSeq { s.seq with foldMark := s.seq.foldMark.set b true })
  if pendingBelow s f then
    (enterPlatenUp .foldRaise (pushFoldout f (s.setSeq { s.seq with stackBank := some b, stack := [] })), true)
  else (s, false)

/-- Cases 3 to 5 of the settled opening (02 R37). -/
def settledTurn (s : State) : State :=
  match s.seq.pendingStep with
  | some d => carryStep d s
  | none => if s.seq.mode = .step then s else decideTurn s

/-- Case 2 of the settled opening, bank L tested before bank R (02 R37, R42): a bank whose re-offer leaves no panel
PENDING leads on to the next case. -/
def settledFold (s : State) : State :=
  let first := match foldoutToOpen s .left with
    | some f => some (Side.left, f)
    | none => (foldoutToOpen s .right).map fun f => (Side.right, f)
  match first with
  | some (b, f) =>
    match openFoldout b f s with
    | (s', true) => s'
    | (s', false) => settledTurn s'
  | none => settledTurn s

/-- The opening becomes settled (02 R37). -/
def settledOpening (s : State) : State :=
  let s := raise .openingDone [slot s.seq.p] (s.setSeq { s.seq with waiting := true })
  match s.seq.pendingPause with
  | some cause => pauseVolume cause s
  | none => settledFold s

/-! ### Panels (02 R43, R44) -/

/-- The top entry's phase. -/
def setPhase (ph : Phase) (s : State) : State :=
  match s.seq.stack with
  | e :: rest => s.setSeq { s.seq with stack := { e with phase := ph } :: rest }
  | [] => s

/-- The panel record of a stack entry. -/
def panelAt (s : State) (e : StackEntry) : Option PanelRecord := ((panelsOf s e.foldout).getD [])[e.panel - 1]?

/-- The nested fold-out that a done panel opens: named by its record, with a PENDING panel below it (02 R44). -/
def nestedToOpen (s : State) (e : StackEntry) : Option Nat :=
  ((panelAt s e).bind (·.nested)).filter (pendingBelow s)

/-- A settled panel is done (02 R44): its entry goes to ADVANCE_NEXT and a nested fold-out owed is pushed. -/
def panelDone (s : State) : State :=
  match s.seq.stack with
  | e :: _ =>
    let s := setPhase .advanceNext s
    match nestedToOpen s e with
    | some g => pushFoldout g s
    | none => s
  | [] => s

/-- Whether the panel of the top entry is PENDING. -/
def topPending (s : State) : Bool :=
  match s.seq.stack with
  | e :: _ => isPending s (.panel e.foldout e.panel)
  | [] => false

/-- PANEL_HELD is left for FOLD_WAIT: the panel is done, or still PENDING with its entry unchanged (02 R44). -/
def leavePanel (s : State) : State :=
  if topPending s then enterFoldWait s else enterFoldWait (panelDone s)

/-- The preview cut of the stack's bank is cleared (03 R62). -/
def clearStackCut (s : State) : State :=
  match s.seq.stackBank with
  | some b => { s with lamps := { s.lamps with cut := s.lamps.cut.set b false } }
  | none => s

/-- The top entry advances (02 R43): to the next panel, or popped; a pop that empties the stack leads to PRESENT. -/
def advanceEntry (s : State) : State :=
  match s.seq.stack with
  | [] => s
  | e :: rest =>
    if e.panel < ((panelsOf s e.foldout).getD []).length then
      clearStackCut (reseat { s.seq with stack := ⟨e.foldout, e.panel + 1, .presentNext⟩ :: rest } s)
    else
      let s := clearStackCut (reseat { s.seq with stack := rest } s)
      match rest with
      | _ :: _ => s
      | [] => enterPresent (s.setSeq { s.seq with stackBank := none, kind := some .restore })

/-- A pedal press in FOLD_WAIT (02 R43). -/
def foldPress (s : State) : State :=
  match s.seq.stack with
  | [] => s
  | e :: _ =>
    match e.phase with
    | .advanceNext => advanceEntry s
    | .presentNext =>
      if topPending s then grantHold (goto .panelHeld s)
      else if (nestedToOpen s e).isSome then panelDone s else advanceEntry (panelDone s)

/-! ### The reaction -/

/-- Whether the channel of the stack's bank is at rest. -/
def stackChannelAtRest (s : State) : Bool :=
  match s.seq.stackBank with
  | some b => (s.chan b).atRest
  | none => true

/-- No target in view is PENDING. -/
def noneInViewPending (s : State) : Bool :=
  !((inView s .left).any (isPending s)) && !((inView s .right).any (isPending s))

/-- The opening is settled (02 R37). -/
def isSettled (s : State) : Bool :=
  s.seq.state == .held && s.col.volState == .scanning && s.seq.hold && bothAtRest s && noneInViewPending s

/-- A pending pause taken at a safe point (02 R46). -/
def takePause (s : State) : State :=
  match s.seq.pendingPause with
  | some cause => if s.seq.state.isRest && bothAtRest s then pauseVolume cause s else s
  | none => s

/-- The sequencer's tests in HELD while SCANNING: the slip fault once both channels rest (02 R36), the settled opening
the moment it becomes settled (R37), and else a pending pause (R46). -/
def reactHeld (s : State) : State :=
  if !s.seq.hold then
    if bothAtRest s then motionFault .platenDown .slipped s else s
  else if isSettled s then
    if s.seq.waiting then takePause s else settledOpening s
  else takePause (s.setSeq { s.seq with waiting := false })

/-- The sequencer's tests in PANEL_HELD while SCANNING: a pending pause (02 R46), and then the panel once its channel
rests; while capture is not allowed only a withdrawn hold ends the wait (R44). -/
def reactPanel (s : State) : State :=
  if s.seq.pendingPause.isSome && bothAtRest s then takePause s
  else if stackChannelAtRest s && (captureAllowed s || !s.seq.hold) then leavePanel s
  else s

/-- The sequencer's tests after an event. -/
def reactSeq (s : State) : State :=
  if s.col.volState = .scanning then
    match s.seq.state with
    | .held => reactHeld s
    | .panelHeld => reactPanel s
    | .handWait | .foldWait => takePause s
    | .stopped | .present | .platenDown | .platenUp | .pick | .carry | .lay | .home | .fault => s
  else s

/-- What follows an event at once: both channels are offered what is in view (05 R96, R97), and then the sequencer
makes its tests. -/
def react (s : State) : State := reactSeq (offerBoth s)

end Sys2Proof.Machine
end

