-- ==== Sys2Proof/Machine/Arrivals.lean ====
section
/-! DEFINITION. The arrivals at the turn sequencer, the pedal, and the ends of motions (02 R25, R30 to R36, R41, R43,
R44, R51), and the commands that stand for them. -/

namespace Sys2Proof.Machine

/-! ### Manual motions (02 R51) -/

/-- The motion whose outputs and time limit a manual motion uses. -/
def ManualMotion.motion : ManualMotion → Motion
  | .platenUp => .platenUp
  | .platenDown => .platenDown
  | .armHome => .home
  | .liftsDown => .present

/-- The drive of a manual motion started. -/
def driveManual (m : ManualMotion) (spine : ArmDrive) (o : Outputs) : Outputs :=
  match m with
  | .platenUp => { o with platen := .up }
  | .platenDown => { o with platen := .down }
  | .armHome => { o with arm := spine }
  | .liftsDown => { o with lifts := both .lower }

/-- The drive of a manual motion stopped. -/
def haltManual (m : ManualMotion) (o : Outputs) : Outputs :=
  match m with
  | .platenUp | .platenDown => { o with platen := .off }
  | .armHome => { o with arm := .brake }
  | .liftsDown => { o with lifts := both .off }

/-- A manual motion ends: its drive is stopped. -/
def endManual (s : State) : State :=
  match s.seq.manual with
  | some m => s.setSeq { s.seq with manual := none, manualLeft := 0, outputs := haltManual m s.seq.outputs }
  | none => s

/-- The manual motion `m` completes when it is the one in flight. -/
def completeManual (m : ManualMotion) (s : State) : State := if s.seq.manual = some m then endManual s else s

/-- Whether the completing input of a manual motion stands at its level already; LIFTS DOWN has none. -/
def manualThere (s : State) : ManualMotion → Bool
  | .platenUp => s.seq.levels.platenUp
  | .platenDown => s.seq.levels.platenDown
  | .armHome => s.seq.levels.home
  | .liftsDown => false

/-- A manual motion starts (02 R51); it completes at once when its input already stands at its level. -/
def startManual (m : ManualMotion) (s : State) : State :=
  let s := s.setSeq { s.seq with
    manual := some m
    manualLeft := motionLimit s m.motion
    outputs := driveManual m (towardSpine s) s.seq.outputs }
  if manualThere s m then endManual s else s

/-! ### The pedal (02 R41, R43, R44) -/

/-- p moves as the owed turn moves it; with none owed it stands (02 R41). -/
def payOwed (s : State) : State :=
  match s.seq.owed with
  | some d => movePointer (pointerAfter s d) s
  | none => s

/-- A pedal press in HAND_WAIT: vacuum OFF, the owed turn made good, and HOME or PRESENT. -/
def handPress (s : State) : State :=
  let s := payOwed (vacuumOff s)
  let s := s.setSeq { s.seq with owed := none, kind := some .restore }
  if s.seq.levels.home then enterPresent s else enterHome s

/-- What the sequencer does at a pedal press (02 R41): nothing unless the volume is SCANNING. -/
def pedalAtSequencer (s : State) : State :=
  if s.col.volState = .scanning then
    match s.seq.state with
    | .handWait => handPress s
    | .foldWait => foldPress s
    | .panelHeld => withdrawHold s
    | .stopped | .present | .platenDown | .held | .platenUp | .pick | .carry | .lay | .home | .fault => s
  else s

/-! ### One arrival (02 R25, R31) -/

/-- The debounced level of an input replaced. -/
def setLevel (i : Input) (active : Bool) (s : State) : State :=
  s.setSeq { s.seq with levels := s.seq.levels.set i active }

/-- A far position arrives at active: it is the last to have done so, brakes the arm in PICK at the source, and
completes CARRY at the destination. -/
def farArrives (side : Side) (s : State) : State :=
  let s := s.setSeq { s.seq with lastFar := some side }
  match s.seq.state with
  | .pick =>
    if side = sourceSide s then s.setOutputs { s.seq.outputs with arm := .brake, vacuum := true, puff := true } else s
  | .carry => if side = destSide s then carryDone s else s
  | .stopped | .present | .platenDown | .held | .platenUp | .lay | .home | .handWait | .foldWait | .panelHeld
  | .fault => s

/-- A contact arrives at active: in PRESENT its lift stops, and both active complete it. -/
def contactArrives (side : Side) (s : State) : State :=
  if s.seq.state = .present then
    let s := s.setOutputs { s.seq.outputs with lifts := s.seq.outputs.lifts.set side .off }
    if s.seq.levels.leftContact && s.seq.levels.rightContact then enterPlatenDown s else s
  else s

/-- Platen down arrives at inactive: in HELD it withdraws the hold, or sets the disturbed flag while PAUSED
(02 R36). -/
def platenLifted (s : State) : State :=
  if s.seq.state = .held then
    match s.col.volState with
    | .scanning => withdrawHold s
    | .paused => s.setSeq { s.seq with disturbed := true }
    | .empty | .loading | .ready | .closed => s
  else s

/-- What an arrival at active does once the level stands (02 R31, R32, R36, R41; 06 R126). -/
def arrivesActive (i : Input) (s : State) : State :=
  match i with
  | .home => completeManual .armHome (if s.seq.state = .home then homeDone s else s)
  | .apex => if s.seq.state = .carry then s.setSeq { s.seq with edgesFixed := true } else s
  | .farLeft => farArrives .left s
  | .farRight => farArrives .right s
  | .vacuumGood => if s.seq.state = .pick then pickDone (retriesLeft s) s else s
  | .platenDown => completeManual .platenDown (if s.seq.state = .platenDown then platenDownDone s else s)
  | .platenUp =>
    let s := platenRose s
    completeManual .platenUp (if s.seq.state = .platenUp then platenUpDone s else s)
  | .leftContact => contactArrives .left s
  | .rightContact => contactArrives .right s
  | .leafEdge =>
    if s.seq.state = .carry ∧ s.seq.edgesFixed = false then s.setSeq { s.seq with edges := s.seq.edges + 1 } else s
  | .pedal => pedalAtSequencer (restartDark s)

/-- What an arrival at inactive does: vacuum good completes LAY, platen down is the platen lifted off the opening. -/
def arrivesInactive (i : Input) (s : State) : State :=
  match i with
  | .vacuumGood => if s.seq.state = .lay then layDone s else s
  | .platenDown => platenLifted s
  | .home | .apex | .farLeft | .farRight | .platenUp | .leftContact | .rightContact | .leafEdge | .pedal => s

/-- An arrival (02 R25): the level changes, the sequencer acts on it, and what follows at once. -/
def arrive (i : Input) (active : Bool) (s : State) : State :=
  let s := setLevel i active s
  react (if active then arrivesActive i s else arrivesInactive i s)

/-- The raw level of a line at which a polarity reads `active`. -/
def lineAt (pol : Polarity) (active : Bool) : Bool :=
  match pol with
  | .activeHigh => active
  | .activeLow => !active

/-- The line and the last sample behind an arrival: an arrival is the second of two samples of the new reading. -/
def lineArrives (i : Input) (active : Bool) (s : State) : State :=
  { s with
    pins := { s.pins with inputs := s.pins.inputs.set i (lineAt (polarityOf s i) active) }
    seq := { s.seq with readings := s.seq.readings.set i active } }

/-- The command of an arrival: taken while no reset is held (10 R179). -/
def arrivalCommand (i : Input) (active : Bool) (s : State) : State :=
  event s fun s => arrive i active (lineArrives i active s)

/-! ### The ends of motions (02 R30, R33, R34, R51) -/

/-- The time limit of the motion in flight runs out. -/
def expireMotion (s : State) : State :=
  match s.seq.state.motion with
  | none => s
  | some .pick => mispick .pick s
  | some .lay =>
    if s.seq.double then doubleFault (raise .motionFault [slot Motion.lay.num, slot FaultCause.timeout.num, slot s.seq.p] s)
    else motionFault .lay .timeout s
  | some m => motionFault m .timeout s

/-- The time limit of the manual motion in flight runs out: LIFTS DOWN completes, the others raise MOTION_FAULT. -/
def expireManual (s : State) : State :=
  match s.seq.manual with
  | none => s
  | some .liftsDown => endManual s
  | some m => raise .motionFault [slot m.num, slot FaultCause.timeout.num, slot s.seq.p] (endManual s)

/-! ### The commands -/

/-- HOME_ARRIVAL (02 R31). -/
def execHomeArrival (active : Bool) (s : State) : Host.Outcome State Fault Refusal :=
  .next (arrivalCommand .home active s)

/-- APEX_ARRIVAL (02 R32). -/
def execApexArrival (active : Bool) (s : State) : Host.Outcome State Fault Refusal :=
  .next (arrivalCommand .apex active s)

/-- FAR_POSITION_ARRIVAL (02 R31). -/
def execFarPositionArrival (side : Side) (active : Bool) (s : State) : Host.Outcome State Fault Refusal :=
  .next (arrivalCommand (farInput side) active s)

/-- VACUUM_GOOD_ARRIVAL (02 R31). -/
def execVacuumGoodArrival (s : State) : Host.Outcome State Fault Refusal :=
  .next (arrivalCommand .vacuumGood true s)

/-- VACUUM_GOOD_RELEASE (02 R34). -/
def execVacuumGoodRelease (s : State) : Host.Outcome State Fault Refusal :=
  .next (arrivalCommand .vacuumGood false s)

/-- PLATEN_DOWN_ARRIVAL (02 R31). -/
def execPlatenDownArrival (s : State) : Host.Outcome State Fault Refusal :=
  .next (arrivalCommand .platenDown true s)

/-- PLATEN_DOWN_RELEASE (02 R36). -/
def execPlatenDownRelease (s : State) : Host.Outcome State Fault Refusal :=
  .next (arrivalCommand .platenDown false s)

/-- PLATEN_UP_ARRIVAL (02 R31, 06 R126). -/
def execPlatenUpArrival (active : Bool) (s : State) : Host.Outcome State Fault Refusal :=
  .next (arrivalCommand .platenUp active s)

/-- CONTACT_ARRIVAL (02 R31). -/
def execContactArrival (side : Side) (active : Bool) (s : State) : Host.Outcome State Fault Refusal :=
  .next (arrivalCommand (contactInput side) active s)

/-- LEAF_EDGE (02 R32): an arrival of the leaf-edge input at active is a leaf edge. -/
def execLeafEdge (active : Bool) (s : State) : Host.Outcome State Fault Refusal :=
  .next (arrivalCommand .leafEdge active s)

/-- PEDAL_PRESS (02 R41): an arrival of the pedal at active is a press. -/
def execPedalPress (active : Bool) (s : State) : Host.Outcome State Fault Refusal :=
  .next (arrivalCommand .pedal active s)

/-- MOTION_EXPIRY (02 R30). -/
def execMotionExpiry (s : State) : Host.Outcome State Fault Refusal :=
  .next (event s expireMotion)

/-- MANUAL_MOTION_EXPIRY (02 R51). -/
def execManualMotionExpiry (s : State) : Host.Outcome State Fault Refusal :=
  .next (event s expireManual)

end Sys2Proof.Machine
end

