-- ==== Sys2Proof/Machine/Operands.lean ====
section
/-! DEFINITION. Reading the payloads of directives (11 R181, R183): slots to named fields, text, records, leaf names
and settings-table entries with their clamps. `none` from a reader is BAD_FORM: the slots could not be read as that
directive's fields. -/

namespace Sys2Proof.Machine

/-! ### Slots and text (01 R11, 11 R181) -/

/-- A slot read as 0 to 2^32-1 (08 R163). -/
def num (w : Slot) : Nat := w.toNat

/-- The slot at an index of a payload of the right length. -/
def at' (ws : List Slot) (i : Nat) : Nat := (ws.getD i 0).toNat

/-- A printable character: 0x20 to 0x7E (01 R11). -/
def printable (c : Byte) : Bool := decide (0x20 ≤ c.toNat) && decide (c.toNat ≤ 0x7E)

/-- A text field of at most `most` characters: the length byte, then the characters; the fill is ignored. None when
the length exceeds the field or a character is not printable. -/
def readText (most : Nat) (ws : List Slot) : Option Text :=
  match slotsBytes ws with
  | [] => none
  | len :: chars =>
    let t := chars.take len.toNat
    if len.toNat ≤ most ∧ t.all printable then some t else none

/-- A label of 0 to 8 characters in three slots. -/
def readLabel (ws : List Slot) : Option Text := readText 8 ws

/-- `n` records of `size` slots each. -/
def chunks (size : Nat) : Nat → List Slot → List (List Slot)
  | 0, _ => []
  | n + 1, ws => ws.take size :: chunks size n (ws.drop size)

/-- Every record read, or none. -/
def readAll {α : Type} (f : List Slot → Option α) : List (List Slot) → Option (List α)
  | [] => some []
  | r :: rs => (f r).bind fun a => (readAll f rs).map (a :: ·)

/-- A list of records after two leading slots, the second its count: none when the count is outside `low..high`, does
not match the records that follow, or a record cannot be read (01 R12 to R14, 11 R183). -/
def readList {α : Type} (low high size : Nat) (f : List Slot → Option α) (ws : List Slot) : Option (Slot × List α) :=
  match ws with
  | first :: count :: rest =>
    if low ≤ count.toNat ∧ count.toNat ≤ high ∧ rest.length = size * count.toNat then
      (readAll f (chunks size count.toNat rest)).map fun rs => (first, rs)
    else none
  | _ => none

/-! ### Loading records (11 R183) -/

/-- A leaf record as carried: the loaded fields, its fold-out index unjudged. -/
def readLeafRecord (ws : List Slot) : Option LeafRecord :=
  (readLabel (ws.take 3)).map fun label =>
    let flags := ws.getD 4 0
    { LeafRecord.unwritten with
      written := true
      label := label
      cls := at' ws 3
      absent := flags.getLsbD 0
      handTurn := flags.getLsbD 1
      noRecto := flags.getLsbD 2
      noVerso := flags.getLsbD 3
      foldout := if flags.getLsbD 4 then
        some (if flags.getLsbD 5 then .verso else .recto, at' ws 5) else none }

/-- Whether a leaf record's class and fold-out index are in range (01 R12). -/
def leafInRange (l : LeafRecord) : Bool :=
  decide (l.cls ≤ 15) && decide ((l.foldout.map (·.2)).getD 0 ≤ 63)

/-- A panel record as carried. -/
def readPanelRecord (ws : List Slot) : Option PanelRecord :=
  some { cls := at' ws 0, nested := if (ws.getD 1 0).getLsbD 0 then some (at' ws 2) else none, tally := .blank .pending }

/-- Whether a panel record's class and nested index are in range (01 R13). -/
def panelInRange (p : PanelRecord) : Bool := decide (p.cls ≤ 15) && decide (p.nested.getD 0 ≤ 63)

/-- A gathering entry as carried. -/
def readGathering (ws : List Slot) : Option GatheringEntry :=
  (readLabel (ws.take 3)).map fun label => { label := label, leafCount := at' ws 3 }

/-- Whether a gathering's leaf count is in range (01 R14). -/
def gatheringInRange (g : GatheringEntry) : Bool := decide (1 ≤ g.leafCount) && decide (g.leafCount ≤ 64)

/-! ### Enumerated fields -/

def dirOf (w : Slot) : Option Dir :=
  if w = 0 then some .forward else if w = 1 then some .backward else none

def modeOf (w : Slot) : Option Mode :=
  if w = 0 then some .auto else if w = 1 then some .step else if w = 2 then some .hand else none

def bindingOf (w : Slot) : Option Binding :=
  if w = 0 then some .ltr else if w = 1 then some .rtl else none

def faceOf (w : Slot) : Option Face :=
  if w = 0 then some .recto else if w = 1 then some .verso else none

/-- The resolutions that RESOLVE carries (11 R183). -/
def resolutionOf (w : Slot) : Option Resolution :=
  if w = 1 then some .retry else if w = 2 then some .hand else if w = 3 then some .giveBack
  else if w = 4 then some .advance else none

/-- The manual motions that MOVE carries (11 R183). -/
def manualOf (w : Slot) : Option ManualMotion :=
  if w = 7 then some .platenUp else if w = 8 then some .platenDown else if w = 9 then some .armHome
  else if w = 10 then some .liftsDown else none

def polarityNumbered (w : Slot) : Option Polarity :=
  if w = 0 then some .activeHigh else if w = 1 then some .activeLow else none

def levelNumbered (w : Slot) : Option NoticeLevel :=
  if w = 0 then some .urgent else if w = 1 then some .normal else none

/-- A mode and an optional direction (START, SET MODE): none when a value lies outside its enumeration. -/
def readModeDir (ws : List Slot) : Option (Mode × Option Dir) :=
  (modeOf (ws.getD 0 0)).bind fun m =>
    if (ws.getD 1 0).getLsbD 0 then (dirOf (ws.getD 2 0)).map fun d => (m, some d) else some (m, none)

/-! ### Naming a leaf (01 R17) -/

/-- A leaf name: an index or a label. -/
inductive LeafName where
  | index (i : Nat)
  | label (t : Text)
  deriving DecidableEq, Repr

/-- The five slots of a leaf name: none when the form is neither 0 nor 1, or the label has 0 characters or fails
R11. -/
def readLeafName (ws : List Slot) : Option LeafName :=
  if ws.getD 0 0 = 0 then some (.index (at' ws 1))
  else if ws.getD 0 0 = 1 then
    match readLabel ((ws.drop 2).take 3) with
    | some [] => none
    | some t => some (.label t)
    | none => none
  else none

/-- The leaves that carry a label, in index order. -/
def leavesLabelled (s : State) (t : Text) : List Nat :=
  (List.range s.col.leaves.length).filter fun i => (leafAt s i).label == t

/-- A leaf named by a directive (01 R17): the leaf, or the refusal with its results. -/
def findLeaf (s : State) (ws : List Slot) : Except (ReplyCode × List Slot) Nat :=
  match readLeafName ws with
  | none => .error (.badForm, [])
  | some (.index i) => if i < leafCount s then .ok i else .error (.outOfRange, [])
  | some (.label t) =>
    match leavesLabelled s t with
    | [] => .error (.noSuchLeaf, [])
    | [i] => .ok i
    | i :: j :: _ => .error (.ambiguous, [slot i, slot j])

/-! ### Clamped quantities (08 R163) -/

/-- A quantity brought to the nearer end of its range. -/
def clampNat (lo hi n : Nat) : Nat := if n < lo then lo else if hi < n then hi else n

def clampInt (lo hi n : Int) : Int := if n < lo then lo else if hi < n then hi else n

/-- A recipe entry's fields as written, brought into range (05 R93, R94). -/
def readRecipe (ws : List Slot) : Recipe :=
  let shot (k : Nat) : Shot :=
    { duties := (List.range 6).map fun i => clampNat 0 255 (at' ws (1 + 7 * k + i))
      time := clampNat 100 50000 (at' ws (1 + 7 * k + 6)) }
  let lo := clampNat 0 65535 (at' ws 22)
  let hi := clampNat 0 65535 (at' ws 23)
  { shotCount := clampNat 1 3 (at' ws 0)
    shots := [shot 0, shot 1, shot 2]
    lo := lo
    hi := max lo hi
    clipLimit := clampNat 0 1000 (at' ws 24)
    takeLimit := clampNat 1 7 (at' ws 25) }

/-- A geometry entry's fields as written, brought into range in the order of 06 R117. -/
def readGeometry (ws : List Slot) : Geometry :=
  let w := clampNat 1024 12288 (at' ws 0)
  let w := w - w % 2
  let h := clampNat 1024 16384 (at' ws 1)
  let x0 := clampNat 0 (w - 1) (at' ws 2)
  let x1 := clampNat 0 (w - 1) (at' ws 3)
  let y0 := clampNat 0 (h - 1) (at' ws 4)
  let y1 := clampNat 0 (h - 1) (at' ws 5)
  { width := w, height := h, x0 := x0, x1 := max x0 x1, y0 := y0, y1 := max y0 y1,
    clipLevel := clampNat 0 65535 (at' ws 6) }

/-- A dose limits entry's fields as written, brought into range (04 R78). -/
def readLimits (ws : List Slot) : DoseLimit :=
  { side := clampNat 0 4000000000 (at' ws 0)
    volume := if at' ws 1 ≤ 65535 then at' ws 1 * 2 ^ 32 + at' ws 2 else 2 ^ 48 - 1 }

end Sys2Proof.Machine
end

