-- ==== Sys2Proof/Machine/Collation.lean ====
section
/-! DEFINITION. The directives of the collation table (01): opening, loading, ending the load, amending, skipping and
discarding a volume. -/

namespace Sys2Proof.Machine

/-! ### OPEN VOLUME (01 R9, R10) -/

/-- The volume record as a payload of 17 slots carries it, none when a field lies outside its values (R9 test 4). -/
def readVolume (mark : Text) (ws : List Slot) : Option VolumeRecord :=
  (bindingOf (ws.getD 10 0)).bind fun binding =>
    let leaves := at' ws 11
    let start := if (ws.getD 13 0).getLsbD 0 then at' ws 14 else 0
    let prior := if (ws.getD 13 0).getLsbD 1 then some (at' ws 15 * 2 ^ 32 + at' ws 16) else none
    if 1 ≤ at' ws 9 ∧ at' ws 9 ≤ 99 ∧ 1 ≤ leaves ∧ leaves ≤ 2048 ∧ at' ws 12 ≤ 3 ∧ start < leaves ∧
        prior.getD 0 < 2 ^ 48 then
      some { shelfMark := mark, part := at' ws 9, binding := binding, leafCount := leaves, doseClass := at' ws 12,
             startLeaf := start, priorDose := prior }
    else none

/-- The next volume serial: 65535 is followed by 1 (01 R2). -/
def nextSerial (n : Nat) : Nat := if 65535 ≤ n then 1 else n + 1

/-- What an accepted OPEN VOLUME does (01 R10). -/
def openWith (v : VolumeRecord) (s : State) : State :=
  { s with
    col := { Collation.blank with
      volState := .loading
      serial := nextSerial s.col.serial
      volume := some v
      leaves := List.replicate v.leafCount .unwritten }
    tally := .blank
    dose := { s.dose with volDose := 0, lock := .closed } }

/-- OPEN VOLUME, judged in the order of 01 R9. -/
def openRule (ws : List Slot) (s : State) : Answer :=
  if s.col.volState ≠ .empty ∧ s.col.volState ≠ .closed then refuse .wrongState s
  else if s.store.state = .recalling then refuse .busy s
  else if ws.length ≠ 17 then refuse .badForm s
  else match readText 32 (ws.take 9) with
    | none | some [] => refuse .badForm s
    | some mark =>
      match readVolume mark ws with
      | none => refuse .outOfRange s
      | some v =>
        if (s.settings.limits.getD v.doseClass ⟨0, 0⟩).volume < v.priorDose.getD 0 then refuse .doseExhausted s
        else ⟨.ok, [slot (nextSerial s.col.serial)], openWith v s⟩

/-! ### Loading (01 R12 to R14) -/

/-- A list written into a table from an index. -/
def writeFrom {α : Type} (first : Nat) (rs table : List α) : List α :=
  table.take first ++ rs ++ table.drop (first + rs.length)

/-- WRITE LEAVES (01 R12). -/
def leavesRule (ws : List Slot) (s : State) : Answer :=
  if s.col.volState ≠ .loading then refuse .wrongState s
  else match readList 1 32 6 readLeafRecord ws with
    | none => refuse .badForm s
    | some (w, rs) =>
      let first := if w = 0xFFFFFFFF#32 then s.col.cursor else num w
      if first + rs.length ≤ leafCount s ∧ rs.all leafInRange then
        ⟨.ok, [slot (first + rs.length)],
          { s with col := { s.col with
              leaves := writeFrom first rs s.col.leaves, cursor := first + rs.length } }⟩
      else refuse .outOfRange s

/-- WRITE FOLDOUTS (01 R13). -/
def foldoutsRule (ws : List Slot) (s : State) : Answer :=
  if s.col.volState ≠ .loading then refuse .wrongState s
  else match readList 2 6 3 readPanelRecord ws with
    | none => refuse .badForm s
    | some (w, ps) =>
      let after := s.col.foldouts.set (num w) (some ps)
      if num w ≤ 63 ∧ ps.all panelInRange ∧ panelsLoaded after ≤ 256 then
        ⟨.ok, [slot (panelsLoaded after)], { s with col := { s.col with foldouts := after } }⟩
      else refuse .outOfRange s

/-- WRITE GATHERINGS (01 R14). -/
def gatheringsRule (ws : List Slot) (s : State) : Answer :=
  if s.col.volState ≠ .loading then refuse .wrongState s
  else match readList 1 32 4 readGathering ws with
    | none => refuse .badForm s
    | some (w, gs) =>
      if num w + gs.length ≤ 256 ∧ gs.all gatheringInRange then
        let after := writeFrom (num w) (gs.map some) s.col.gatherings
        ⟨.ok, [slot (gatheringCount after)], { s with col := { s.col with gatherings := after } }⟩
      else refuse .outOfRange s

/-! ### The eight checks of END LOADING (01 R15) -/

/-- The leaf counts of gatherings 0..G-1, 0 for an unwritten one. -/
def gatheringSizes (s : State) : List Nat :=
  (s.col.gatherings.take (gatheringCount s.col.gatherings)).map fun g => (g.map (·.leafCount)).getD 0

/-- The first index at which a running sum exceeds `n`. -/
def firstExcess (n : Nat) : Nat → Nat → List Nat → Option Nat
  | _, _, [] => none
  | i, acc, x :: xs => if n < acc + x then some i else firstExcess n (i + 1) (acc + x) xs

/-- Check 1: the lowest unwritten leaf. -/
def check1 (s : State) : Option Nat := (List.range s.col.leaves.length).find? fun i => !(leafAt s i).written

/-- Check 2: the gatherings and their sum. -/
def check2 (s : State) : Option Nat :=
  let g := gatheringCount s.col.gatherings
  if g = 0 then some 0
  else match (List.range g).find? fun i => (s.col.gatherings.getD i none).isNone with
    | some i => some i
    | none =>
      match firstExcess (leafCount s) 0 0 (gatheringSizes s) with
      | some i => some i
      | none => if (gatheringSizes s).sum < leafCount s then some (g - 1) else none

/-- The fold-outs that leaves name, in leaf order. -/
def leafRefs (s : State) : List Nat := s.col.leaves.filterMap fun l => l.foldout.map (·.2)

/-- The fold-outs that the panels of a fold-out name. -/
def nestedRefs (s : State) (f : Nat) : List Nat := ((panelsOf s f).getD []).filterMap (·.nested)

/-- Every reference, of leaves and of panels. -/
def allRefs (s : State) : List Nat := leafRefs s ++ (List.range 64).flatMap (nestedRefs s)

/-- Whether a fold-out entry is written. -/
def isWritten (s : State) (f : Nat) : Bool := (panelsOf s f).isSome

/-- Check 3: leaves first, then written fold-outs. -/
def check3 (s : State) : Option Nat :=
  ((List.range s.col.leaves.length).find? fun i =>
      ((leafAt s i).foldout.map fun r => !isWritten s r.2).getD false).or
    ((List.range 64).find? fun f => (nestedRefs s f).any fun g => !isWritten s g)

/-- Check 4: an ABSENT leaf with a reference. -/
def check4 (s : State) : Option Nat :=
  (List.range s.col.leaves.length).find? fun i => (leafAt s i).absent && (leafAt s i).foldout.isSome

/-- Check 5: a written fold-out not named exactly once. -/
def check5 (s : State) : Option Nat :=
  (List.range 64).find? fun f => isWritten s f && decide ((allRefs s).count f ≠ 1)

/-- The fold-outs at depths 1 to 4 below a leaf. -/
def withinDepth (s : State) : List Nat :=
  let d1 := leafRefs s
  let d2 := d1.flatMap (nestedRefs s)
  let d3 := d2.flatMap (nestedRefs s)
  d1 ++ d2 ++ d3 ++ d3.flatMap (nestedRefs s)

/-- Check 6: a written fold-out in a cycle or at depth 5 or more. -/
def check6 (s : State) : Option Nat :=
  (List.range 64).find? fun f => isWritten s f && !(withinDepth s).contains f

/-- Check 7: at least one leaf is present. -/
def check7 (s : State) : Option Nat :=
  if (List.range s.col.leaves.length).any fun i => !(leafAt s i).absent then none else some 0

/-- Check 8: the start leaf is present. -/
def check8 (s : State) : Option Nat :=
  let i := (s.col.volume.map (·.startLeaf)).getD 0
  if (leafAt s i).absent then some i else none

/-- The first failing check with its item (01 R15). -/
def collationFault (s : State) : Option (Nat × Nat) :=
  [check1, check2, check3, check4, check5, check6, check7, check8].zipIdx.findSome? fun (c, i) =>
    (c s).map fun item => (i + 1, item)

/-! ### Initialising the tally (01 R16) -/

/-- The gathering of each leaf, in leaf order (01 R8). -/
def gatheringOfLeaves (s : State) : List Nat :=
  (gatheringSizes s).zipIdx.flatMap fun (k, i) => List.replicate k i

/-- The initial state of a leaf's side. -/
def initialState (l : LeafRecord) (suppressed : Bool) : TState :=
  if l.absent then .absent else if suppressed then .suppressed else .pending

/-- A leaf record as END LOADING leaves it. -/
def LeafRecord.ready (l : LeafRecord) (g : Option Nat) : LeafRecord :=
  { l with
    gathering := g
    recto := .blank (initialState l l.noRecto)
    verso := .blank (initialState l l.noVerso) }

/-- The collation as END LOADING leaves it. -/
def readyCollation (s : State) : Collation :=
  { s.col with
    volState := .ready
    leaves := s.col.leaves.mapIdx fun i l => l.ready ((gatheringOfLeaves s)[i]?)
    foldouts := s.col.foldouts.map fun f => f.map fun ps => ps.map ({ · with tally := .blank .pending }) }

/-- What a passed END LOADING does (01 R16). -/
def makeReady (s : State) : State :=
  let s := { s with col := readyCollation s }
  { s with
    tally := { s.tally with
      sideCounts := countStates ((allSides s).filterMap (stateOf s))
      panelCounts := countStates ((allPanels s).filterMap (stateOf s)) }
    dose := { s.dose with volDose := (s.col.volume.bind (·.priorDose)).getD 0 } }

/-- END LOADING (01 R15, R16). -/
def endLoadingRule (ws : List Slot) (s : State) : Answer :=
  if s.col.volState ≠ .loading then refuse .wrongState s
  else if ws ≠ [] then refuse .badForm s
  else match collationFault s with
    | some (check, item) => ⟨.collationBad, [slot check, slot item], s⟩
    | none =>
      let s := makeReady s
      ⟨.ok, [slot s.tally.sideCounts.pending, slot s.tally.panelCounts.pending], s⟩

/-! ### AMEND LEAF and SKIP LEAF (01 R18, R19) -/

/-- A leaf record changed. -/
def modifyLeaf (i : Nat) (g : LeafRecord → LeafRecord) (s : State) : State :=
  { s with col := { s.col with leaves := s.col.leaves.modify i g } }

/-- AMEND LEAF (01 R18): 11 slots, presence bits 0 label, 1 class, 2 HAND_TURN. -/
def amendRule (ws : List Slot) (s : State) : Answer :=
  if s.col.volState ≠ .paused then refuse .wrongState s
  else if ws.length ≠ 11 then refuse .badForm s
  else
    let has := ws.getD 5 0
    let label := readLabel ((ws.drop 6).take 3)
    let cls := at' ws 9
    let hand := at' ws 10
    if !(has.getLsbD 0 || has.getLsbD 1 || has.getLsbD 2) || (has.getLsbD 0 && label.isNone) then refuse .badForm s
    else match findLeaf s (ws.take 5) with
      | .error (code, results) => ⟨code, results, s⟩
      | .ok i =>
        if (has.getLsbD 1 && decide (15 < cls)) || (has.getLsbD 2 && decide (1 < hand)) then refuse .outOfRange s
        else ⟨.ok, [], modifyLeaf i (fun l => { l with
          label := if has.getLsbD 0 then label.getD [] else l.label
          cls := if has.getLsbD 1 then cls else l.cls
          handTurn := if has.getLsbD 2 then decide (hand = 1) else l.handTurn }) s⟩

/-- The targets of a leaf: its two sides, and the panels of its fold-out and of every one nested below (01 R19). -/
def targetsOfLeaf (s : State) (i : Nat) : List Target :=
  [.side i .recto, .side i .verso] ++
    (match (leafAt s i).foldout with
     | some (_, f) => panelsUnder s (coveredFoldouts s f)
     | none => [])

/-- SKIP LEAF (01 R19). -/
def skipRule (ws : List Slot) (s : State) : Answer :=
  if s.col.volState ≠ .ready ∧ s.col.volState ≠ .paused then refuse .wrongState s
  else if ws.length ≠ 5 then refuse .badForm s
  else match findLeaf s ws with
    | .error (code, results) => ⟨code, results, s⟩
    | .ok i =>
      let ts := targetsOfLeaf s i
      ⟨.ok, [slot (ts.countP (isPending s))], settleAll ts .skipped s⟩

/-! ### DISCARD VOLUME (01 R20, R21) -/

/-- The sequencer brought to STOPPED by DISCARD VOLUME or CLOSE VOLUME: every drive braked, the stack emptied, pending
pause and step dropped, the fault record removed, the disturbed flag, the stay marks and both preview cuts cleared; the
vacuum valve, p, mode and direction stand (02 R51, 03 R62, 07 R150). -/
def stopSequencer (s : State) : State :=
  let s := goto .stopped s
  dropCuts (s.setSeq { s.seq with
    stack := []
    stackBank := none
    kind := none
    turn := none
    pendingPause := none
    pendingStep := none
    foldMark := both false
    settledHere := both false
    fault := none
    disturbed := false
    hold := false
    holdGiven := false
    waiting := false
    motionLeft := 0
    outputs := s.seq.outputs.brakeAll })

/-- The collation ended, the serial kept (01 R20). -/
def endVolume (s : State) : State :=
  { s with
    col := { Collation.blank with serial := s.col.serial }
    tally := .blank
    dose := { s.dose with volDose := 0 } }

/-- Both ports at DISCARD VOLUME (06 R132). -/
def discardPorts (s : State) : State := { s with ports := ⟨s.ports.left.discard, s.ports.right.discard⟩ }

/-- The sequencer at DISCARD VOLUME (01 R21, 02 R51): a scanning or paused volume is stopped; in the other states the
sequencer is STOPPED already, and the fault record, the disturbed flag and the stay marks are cleared. -/
def discardSequencer (s : State) : State :=
  if s.col.volState = .scanning ∨ s.col.volState = .paused then stopSequencer s
  else s.setSeq { s.seq with
    fault := none, disturbed := false, foldMark := both false, settledHere := both false }

/-- What an accepted DISCARD VOLUME does in every block. -/
def discardVolume (s : State) : State :=
  endVolume (discardSequencer (endManual (discardPorts (discardChannel .right (discardChannel .left s)))))

/-- DISCARD VOLUME (01 R20). -/
def discardRule (ws : List Slot) (s : State) : Answer :=
  if s.col.volState = .empty then refuse .wrongState s
  else if ws ≠ [] then refuse .badForm s
  else ⟨.ok, [], discardVolume s⟩

/-! ### The commands -/

/-- OPEN VOLUME (01 R9, R10). -/
def execOpenVolume (tag : Byte) (ws : List Slot) (s : State) : Host.Outcome State Fault Refusal :=
  .next (directive tag 0x0010 (openRule ws) s)

/-- WRITE LEAVES (01 R12). -/
def execWriteLeaves (tag : Byte) (ws : List Slot) (s : State) : Host.Outcome State Fault Refusal :=
  .next (directive tag 0x0011 (leavesRule ws) s)

/-- WRITE FOLDOUTS (01 R13). -/
def execWriteFoldouts (tag : Byte) (ws : List Slot) (s : State) : Host.Outcome State Fault Refusal :=
  .next (directive tag 0x0012 (foldoutsRule ws) s)

/-- WRITE GATHERINGS (01 R14). -/
def execWriteGatherings (tag : Byte) (ws : List Slot) (s : State) : Host.Outcome State Fault Refusal :=
  .next (directive tag 0x0013 (gatheringsRule ws) s)

/-- END LOADING (01 R15, R16). -/
def execEndLoading (tag : Byte) (ws : List Slot) (s : State) : Host.Outcome State Fault Refusal :=
  .next (directive tag 0x0014 (endLoadingRule ws) s)

/-- AMEND LEAF (01 R18). -/
def execAmendLeaf (tag : Byte) (ws : List Slot) (s : State) : Host.Outcome State Fault Refusal :=
  .next (directive tag 0x0015 (amendRule ws) s)

/-- SKIP LEAF (01 R19). -/
def execSkipLeaf (tag : Byte) (ws : List Slot) (s : State) : Host.Outcome State Fault Refusal :=
  .next (directive tag 0x0016 (skipRule ws) s)

/-- DISCARD VOLUME (01 R20, R21). -/
def execDiscardVolume (tag : Byte) (ws : List Slot) (s : State) : Host.Outcome State Fault Refusal :=
  .next (directive tag 0x0017 (discardRule ws) s)

end Sys2Proof.Machine
end

