-- ==== Sys2Proof/Machine/Closing.lean ====
section
/-! DEFINITION. The directives of the tally (07): reading it, asking for a side again, and closing the volume. -/

namespace Sys2Proof.Machine

/-- Whether the tally can be read: READY, SCANNING, PAUSED or CLOSED (07 R146). -/
def tallyReadable (s : State) : Bool :=
  match s.col.volState with
  | .ready | .scanning | .paused | .closed => true
  | .empty | .loading => false

/-- A prior dose: a presence slot, then two slots. -/
def priorSlots : Option Nat → List Slot
  | some n => 1 :: slots48 n
  | none => [0, 0, 0]

/-! ### READ TALLY (07 R146, R147) -/

/-- A retake entry: the leaf in bits 0 to 15, the side in bit 16 (11 R183). -/
def retakeSlot (e : Nat × Face) : Slot := slot (e.1 + e.2.num * 65536)

/-- The tally fields of a leaf's two sides. -/
def leafTallySlots (l : LeafRecord) : List Slot := tallySlots l.recto ++ tallySlots l.verso

/-- The results of READ TALLY, in the order of 11 R183. -/
def tallyResults (s : State) (first count : Nat) : List Slot :=
  [slot s.col.volState.num, slot s.col.serial] ++ s.tally.sideCounts.slots7 ++ s.tally.panelCounts.slots6 ++
  slots48 s.dose.volDose ++ priorSlots (s.col.volume.bind (·.priorDose)) ++ [slot s.tally.clock] ++
  slot s.tally.retakes.length :: s.tally.retakes.map retakeSlot ++
  ((s.col.leaves.drop first).take count).flatMap leafTallySlots

/-- READ TALLY. -/
def readTallyRule (ws : List Slot) (s : State) : Answer :=
  if tallyReadable s = false then refuse .wrongState s
  else if ws.length ≠ 2 then refuse .badForm s
  else if at' ws 1 = 0 ∨ 64 < at' ws 1 then refuse .badForm s
  else if leafCount s ≤ at' ws 0 ∨ leafCount s < at' ws 0 + at' ws 1 then refuse .outOfRange s
  else ⟨.ok, tallyResults s (at' ws 0) (at' ws 1), s⟩

/-! ### RETAKE (07 R143) -/

/-- What an accepted RETAKE does to the tally: the side is unsettled and joins the list at its place. -/
def retakeSide (i : Nat) (f : Face) (s : State) : State :=
  let s := unsettle (.side i f) s
  { s with tally := { s.tally with retakes := insertRetake (i, f) s.tally.retakes } }

/-- RETAKE, judged in the order of 07 R143. -/
def retakeRule (ws : List Slot) (s : State) : Answer :=
  if s.col.volState ≠ .scanning ∧ s.col.volState ≠ .paused then refuse .wrongState s
  else if ws.length ≠ 6 then refuse .badForm s
  else match findLeaf s (ws.take 5) with
    | .error (code, results) => ⟨code, results, s⟩
    | .ok i =>
      match faceOf (ws.getD 5 0) with
      | none => refuse .outOfRange s
      | some f =>
        if 128 ≤ s.tally.retakes.length then refuse .listFull s
        else match stateOf s (.side i f) with
          | some .pending => refuse .notSettled s
          | some .captured | some .rejected | some .withheld =>
            let s := retakeSide i f s
            ⟨.ok, [slot s.tally.retakes.length, slot (openingOf s i f)], react s⟩
          | some .suppressed | some .skipped | some .absent | none => refuse .wrongState s

/-! ### The closure record (07 R151, R152) -/

/-- The tally fields of every target, in digest order. -/
def allFields (s : State) : List (Target × TallyFields) :=
  (allTargets s).filterMap fun t => (fieldsOf s t).map fun q => (t, q)

/-- The tally digest (07 R152, 11 R185). -/
def digestOf (s : State) : Slot := crc32 (slotsBytes ((allFields s).flatMap fun e => tallySlots e.2))

/-- The greatest dose of any target. -/
def largestDose (s : State) : Nat := ((allFields s).map (·.2.dose)).foldl max 0

/-- The first target in digest order that holds the greatest dose, absent when that is 0. -/
def largestTarget (s : State) : Option Target :=
  if largestDose s = 0 then none
  else ((allFields s).find? fun e => e.2.dose == largestDose s).map (·.1)

/-- The CAPTURED sides of a leaf. -/
def capturedSides (l : LeafRecord) : Nat :=
  (if l.recto.state = .captured then 1 else 0) + (if l.verso.state = .captured then 1 else 0)

/-- The summary of one gathering. -/
def summaryOf (s : State) (i : Nat) : GatheringSummary :=
  let g := s.col.gatherings.getD i none
  let captured := ((s.col.leaves.filter fun l => l.gathering == some i).map capturedSides).sum
  { label := (g.map (·.label)).getD []
    captured := captured
    notCaptured := 2 * (g.map (·.leafCount)).getD 0 - captured }

/-- The closure record of the volume as it stands (07 R151). -/
def closureOf (s : State) (forced : Nat) : Closure where
  shelfMark := (s.col.volume.map (·.shelfMark)).getD []
  part := (s.col.volume.map (·.part)).getD 0
  serial := s.col.serial
  sideCounts := s.tally.sideCounts
  panelCounts := s.tally.panelCounts
  forced := forced
  priorDose := s.col.volume.bind (·.priorDose)
  volDose := s.dose.volDose
  largestDose := largestDose s
  largestTarget := largestTarget s
  seconds := s.tally.clock
  gatherings := (List.range (gatheringCount s.col.gatherings)).map (summaryOf s)
  digest := digestOf s

/-! ### CLOSE VOLUME (07 R148 to R150) -/

/-- The lowest leaf with a PENDING side. -/
def lowestPending (s : State) : Option Nat :=
  (List.range s.col.leaves.length).find? fun i => isPending s (.side i .recto) || isPending s (.side i .verso)

/-- The closing itself, after FORCE: the record built, the clock stopped, the sequencer STOPPED, the volume CLOSED. -/
def closeWith (forced : Nat) (s : State) : State :=
  let record := closureOf s forced
  let s := stopSequencer s
  { s with
    col := { s.col with volState := .closed }
    tally := { s.tally with clockRuns := false, closure := some record } }

/-- What an accepted CLOSE VOLUME does, with its reply. -/
def closeVolume (force : Bool) (s : State) : Answer :=
  let forced := if force then (allTargets s).countP (isPending s) else 0
  let s := closeWith forced (if force then settleAll (allTargets s) .skipped s else s)
  ⟨.ok, [slot s.col.serial, slot forced, ((s.tally.closure).map (·.digest)).getD 0], s⟩

/-- CLOSE VOLUME, judged in the order of 07 R148. -/
def closeRule (ws : List Slot) (s : State) : Answer :=
  if s.col.volState ≠ .ready ∧ s.col.volState ≠ .paused then refuse .wrongState s
  else if ws.length ≠ 1 then refuse .badForm s
  else if s.seq.manual.isSome then refuse .busy s
  else
    let force := (ws.getD 0 0).getLsbD 0
    let sides := s.tally.sideCounts.pending
    let panels := s.tally.panelCounts.pending
    if !force && decide (0 < sides + panels) then
      ⟨.incomplete, [slot sides, slot panels] ++ slotsOpt (lowestPending s), s⟩
    else closeVolume force s

/-! ### READ CLOSURE (07 R153) -/

/-- An entry of the gathering summary. -/
def summarySlots (g : GatheringSummary) : List Slot := labelSlots g.label ++ [slot g.captured, slot g.notCaptured]

/-- The closure record as READ CLOSURE gives it from gathering `first` on: at most 64 entries. The presence slot of the
prior dose stands right before its two slots, as in READ TALLY; the spec fixes no place for it here (log 26). -/
def closureSlots (c : Closure) (first : Nat) : List Slot :=
  let entries := (c.gatherings.drop first).take 64
  textSlots 36 c.shelfMark ++ [slot c.part, slot c.serial] ++ c.sideCounts.slots7 ++ c.panelCounts.slots6 ++
  [slot c.forced] ++ priorSlots c.priorDose ++ slots48 c.volDose ++ [slot c.largestDose] ++
  targetOptSlots c.largestTarget ++ [slot c.seconds, slot c.gatherings.length, slot entries.length] ++
  entries.flatMap summarySlots ++ [c.digest]

/-- READ CLOSURE. -/
def readClosureRule (ws : List Slot) (s : State) : Answer :=
  if s.col.volState ≠ .closed then refuse .wrongState s
  else if ws.length ≠ 2 then refuse .badForm s
  else match s.tally.closure with
    | none => refuse .wrongState s
    | some c =>
      let first := if (ws.getD 0 0).getLsbD 0 then at' ws 1 else 0
      if c.gatherings.length ≤ first then refuse .outOfRange s
      else ⟨.ok, closureSlots c first, s⟩

/-! ### The commands -/

/-- READ TALLY (07 R146). -/
def execReadTally (tag : Byte) (ws : List Slot) (s : State) : Host.Outcome State Fault Refusal :=
  .next (directive tag 0x0040 (readTallyRule ws) s)

/-- CLOSE VOLUME (07 R148). -/
def execCloseVolume (tag : Byte) (ws : List Slot) (s : State) : Host.Outcome State Fault Refusal :=
  .next (directive tag 0x0041 (closeRule ws) s)

/-- RETAKE (07 R143). -/
def execRetake (tag : Byte) (ws : List Slot) (s : State) : Host.Outcome State Fault Refusal :=
  .next (directive tag 0x0042 (retakeRule ws) s)

/-- READ CLOSURE (07 R153). -/
def execReadClosure (tag : Byte) (ws : List Slot) (s : State) : Host.Outcome State Fault Refusal :=
  .next (directive tag 0x0043 (readClosureRule ws) s)

end Sys2Proof.Machine
end

