-- ==== Sys2Proof/Machine/Events.lean ====
section
/-! DEFINITION. The events of the lamps, the supply, the dose tick, the strobes, the volume clock and the imagers
(03, 04, 05, 06, 07), each taken only while no reset is held (10 R179). -/

namespace Sys2Proof.Machine

/-! ### The lamp supply (03 R65 to R67) -/

/-- The lamp supply's state and recovery time. The spec gives that time a value in RECOVERING only; every move to LOW or
GOOD sets it 0 (log 46). -/
def setSupply (q : Supply) (ms : Nat) (s : State) : State :=
  { s with lamps := { s.lamps with supply := q, recovery := ms } }

/-- The line of the lamp supply, as the next sample finds it. -/
def setSupplyPin (good : Bool) (s : State) : State := { s with pins := { s.pins with supplyGood := good } }

/-- The banks whose strobes a loss cuts: none 0, L 1, R 2, both 3. -/
def strobesRunning (s : State) : Nat :=
  (if s.lamps.strobe.left.isSome then 1 else 0) + (if s.lamps.strobe.right.isSome then 2 else 0)

/-- A sample that reads not good (R65, R66): from GOOD and RECOVERING a supply loss, which cuts running strobes and
raises LAMP_SUPPLY. Two strobes are cut left before right, so that the left channel's SIDE_REJECTED is the first of two
(R170 leaves the order open; log 13). -/
def badSupply (s : State) : State :=
  match s.lamps.supply with
  | .low => s
  | .recovering | .good =>
    react (raise .lampSupply [slot (strobesRunning s)] (cutStrobe .right (cutStrobe .left (setSupply .low 0 s))))

/-- The monitor reaches GOOD: capture is allowed (R67). -/
def supplyReturns (s : State) : State := react (setSupply .good 0 s)

/-- A sample that reads good (R65). -/
def goodSupply (s : State) : State :=
  match s.lamps.supply with
  | .low => setSupply .recovering 0 s
  | .recovering => if 500 ≤ s.lamps.recovery + 1 then supplyReturns s else setSupply .recovering (s.lamps.recovery + 1) s
  | .good => s

/-- The end of 500 ms of unbroken good samples. -/
def endRecovery (s : State) : State := if s.lamps.supply = .recovering then supplyReturns s else s

/-! ### The volume clock (07 R140) -/

/-- A full second of a running clock ends. -/
def clockSecond (s : State) : State :=
  if s.tally.clockRuns then
    { s with tally := { s.tally with clock := countUp (2 ^ 32 - 1) s.tally.clock, clockMs := 0 } }
  else s

/-! ### The commands -/

/-- GATE_REQUEST (04 R81). -/
def execGateRequest (bank : Side) (s : State) : Host.Outcome State Fault Refusal :=
  .next (event s fun s => react (judgeGate bank s))

/-- STROBE_END (03 R61). -/
def execStrobeEnd (bank : Side) (s : State) : Host.Outcome State Fault Refusal :=
  .next (event s fun s => react (endStrobe bank s))

/-- FRAME_TIMEOUT (05 R106). -/
def execFrameTimeout (bank : Side) (s : State) : Host.Outcome State Fault Refusal :=
  .next (event s fun s => react (expireFrame bank s))

/-- CHANNEL_LOCKOUT (03 R57). -/
def execChannelLockout (channel : Fin 12) (fault : LampFault) (s : State) : Host.Outcome State Fault Refusal :=
  .next (event s (lockOut channel fault))

/-- SUPPLY_LOSS (03 R66). -/
def execSupplyLoss (s : State) : Host.Outcome State Fault Refusal :=
  .next (event (setSupplyPin false s) badSupply)

/-- SUPPLY_GOOD_SAMPLE (03 R65). -/
def execSupplyGoodSample (s : State) : Host.Outcome State Fault Refusal :=
  .next (event (setSupplyPin true s) goodSupply)

/-- SUPPLY_RECOVERED (03 R67). -/
def execSupplyRecovered (s : State) : Host.Outcome State Fault Refusal :=
  .next (event (setSupplyPin true s) endRecovery)

/-- DARK_DELAY_EXPIRY (03 R63). -/
def execDarkDelayExpiry (s : State) : Host.Outcome State Fault Refusal := .next (unlessHeld s darkExpiry)

/-- DOSE_TICK (04 R86). -/
def execDoseTick (first : Side) (s : State) : Host.Outcome State Fault Refusal := .next (event s (tickDose first))

/-- VOLUME_CLOCK_SECOND (07 R140). -/
def execVolumeClockSecond (s : State) : Host.Outcome State Fault Refusal := .next (unlessHeld s clockSecond)

/-- FRAME_START (06 R121). -/
def execFrameStart (port : Side) (s : State) : Host.Outcome State Fault Refusal :=
  .next (event s fun s => react (frameStarts port s))

/-- LINE (06 R123). -/
def execLine (port : Side) (pixels : List Pixel) (s : State) : Host.Outcome State Fault Refusal :=
  .next (event s (takeLine port pixels))

/-- FRAME_END (06 R127). -/
def execFrameEnd (port : Side) (s : State) : Host.Outcome State Fault Refusal :=
  .next (event s fun s => react (endFrame port .frameEnd s))

/-- STALL (06 R130). -/
def execStall (port : Side) (s : State) : Host.Outcome State Fault Refusal :=
  .next (event s fun s => react (endFrame port .stall s))

end Sys2Proof.Machine
end

