-- ==== Sys2Proof/Config.lean ====
section
/-! DEFINITION. What the spec leaves to the implementation: constants without a body, so that no proof can see their
values. -/

namespace Sys2Proof

/-- Free value (log 22): READ STATUS returns the dark-delay timer's "remaining seconds" (03 R68), and the spec does
not say whether a part of a second is counted as a whole one. True: it is rounded up. -/
opaque Config.roundDarkSecondsUp : Bool

end Sys2Proof
end

