-- ==== Sys2Proof/Machine/Locks.lean ====
section
/-! DEFINITION. CLEAR LAMP (03 R58) and the directives of the conservation lock (04 R88 to R90). -/

namespace Sys2Proof.Machine

/-- Whether a STORE SETTINGS or RECALL SETTINGS is in flight. -/
def storeBusy (s : State) : Bool := s.store.state != .idle

/-- A lamp channel's lock-out and fault kind forgotten. -/
def clearLockout (c : Nat) (s : State) : State :=
  { s with lamps := { s.lamps with lockouts := s.lamps.lockouts.set c none } }

/-- CLEAR LAMP (03 R58). -/
def clearLampRule (ws : List Slot) (s : State) : Answer :=
  if ws.length ≠ 1 then refuse .badForm s
  else if 11 < at' ws 0 then refuse .outOfRange s
  else if bankLevel s (bankOf (at' ws 0)) = .strobe then refuse .busy s
  else
    let s := clearLockout (at' ws 0) s
    ⟨.ok, [slot (channelStateNum s (at' ws 0))], s⟩

/-- The lock at a state. -/
def setLock (l : LockState) (s : State) : State := { s with dose := { s.dose with lock := l } }

/-- LOCK (04 R88). -/
def lockRule (ws : List Slot) (s : State) : Answer :=
  if ws ≠ [] then refuse .badForm s else ⟨.ok, [], setLock .closed s⟩

/-- UNLOCK, judged in the order of 04 R89. -/
def unlockRule (ws : List Slot) (s : State) : Answer :=
  if ws.length ≠ 1 then refuse .badForm s
  else if 4 ≤ s.dose.mismatches then refuse .locked s
  else if s.store.state = .recalling then refuse .busy s
  else if ws.getD 0 0 = s.settings.key then
    ⟨.ok, [], { s with dose := { s.dose with lock := .unlocked, mismatches := 0 } }⟩
  else ⟨.keyMismatch, [], { s with dose := { s.dose with lock := .closed, mismatches := s.dose.mismatches + 1 } }⟩

/-- SET KEY (04 R90): BUSY while a store or recall is in flight, whatever the lock (10 R176, R177), and then LOCKED. -/
def setKeyRule (ws : List Slot) (s : State) : Answer :=
  if ws.length ≠ 1 then refuse .badForm s
  else if storeBusy s then refuse .busy s
  else if s.dose.lock = .closed then refuse .locked s
  else ⟨.ok, [], { s with settings := { s.settings with key := ws.getD 0 0 } }⟩

/-- CLEAR LAMP (03 R58). -/
def execClearLamp (tag : Byte) (ws : List Slot) (s : State) : Host.Outcome State Fault Refusal :=
  .next (directive tag 0x0030 (clearLampRule ws) s)

/-- LOCK (04 R88). -/
def execLock (tag : Byte) (ws : List Slot) (s : State) : Host.Outcome State Fault Refusal :=
  .next (directive tag 0x0031 (lockRule ws) s)

/-- UNLOCK (04 R89). -/
def execUnlock (tag : Byte) (ws : List Slot) (s : State) : Host.Outcome State Fault Refusal :=
  .next (directive tag 0x0032 (unlockRule ws) s)

/-- SET KEY (04 R90). -/
def execSetKey (tag : Byte) (ws : List Slot) (s : State) : Host.Outcome State Fault Refusal :=
  .next (directive tag 0x0033 (setKeyRule ws) s)

end Sys2Proof.Machine
end

