-- ==== Sys2Proof/Machine/Turning.lean ====
section
/-! DEFINITION. The directives of the turn sequencer (02 sections 2.6 to 2.11): starting, pausing, resuming, stepping,
the mode, the resolution of faults, manual motions and the vacuum. -/

namespace Sys2Proof.Machine

/-- The volume state replaced. -/
def setVolState (v : VolState) (s : State) : State := { s with col := { s.col with volState := v } }

/-- The disturbed flag set while the volume is PAUSED (02 R51). -/
def disturb (s : State) : State :=
  if s.col.volState = .paused then s.setSeq { s.seq with disturbed := true } else s

/-! ### START (02 R45) -/

/-- The sequencer as START sets it up, before it leaves STOPPED. -/
def startSequencer (m : Mode) (d : Dir) (s : State) : Sequencer :=
  { s.seq with
    p := (s.col.volume.map (·.startLeaf)).getD 0
    foldMark := both false
    settledHere := both false
    mode := m
    dir := d
    stack := []
    stackBank := none
    pendingStep := none
    pendingPause := none
    disturbed := false }

/-- What an accepted START does: SCANNING, the clock started, and the RESTORE sequence from PLATEN_UP. -/
def startVolume (m : Mode) (d : Dir) (s : State) : State :=
  let s := setVolState .scanning (reseat (startSequencer m d s) s)
  react (enterPlatenUp .restore { s with tally := { s.tally with clockRuns := true, clockMs := 0 } })

/-- START, judged in the order of 08 R158, 02 R27 and R45. -/
def startRule (ws : List Slot) (s : State) : Answer :=
  if s.col.volState ≠ .ready then refuse .wrongState s
  else if ws.length ≠ 3 then refuse .badForm s
  else match readModeDir ws with
    | none => refuse .outOfRange s
    | some (m, d) =>
      if s.seq.manual.isSome then refuse .busy s
      else ⟨.ok, [], startVolume m (d.getD .forward) s⟩

/-! ### PAUSE (02 R46) -/

/-- A pause made pending while the volume is SCANNING, unless one is pending already; taken at once at a safe point. -/
def requestPause (cause : PauseCause) (s : State) : State :=
  if s.col.volState = .scanning ∧ s.seq.pendingPause = none then
    react (s.setSeq { s.seq with pendingPause := some cause })
  else s

/-- PAUSE. -/
def pauseRule (ws : List Slot) (s : State) : Answer :=
  if s.col.volState ≠ .scanning ∧ s.col.volState ≠ .paused then refuse .wrongState s
  else if ws ≠ [] then refuse .badForm s
  else ⟨.ok, [], requestPause .pause s⟩

/-! ### The resolutions (02 R50) -/

/-- The present leaf beyond the turned leaf in the turn's direction, which ADVANCE passes too. -/
def leafBeyond (s : State) (r : FaultRecord) : Option Nat :=
  match r.turned, r.owed with
  | some t, some .forward => if presentAfter s t < leafCount s then some (presentAfter s t) else none
  | some t, some .backward => presentBefore s t
  | _, _ => none

/-- The resolutions that a fault's cause allows. -/
def resolutionAllowed : FaultCause → Resolution → Bool
  | .timeout, .retry | .timeout, .hand | .mispick, .retry | .mispick, .hand | .slipped, .retry | .slipped, .hand
  | .doubleTurn, .giveBack | .doubleTurn, .advance => true
  | .timeout, .giveBack | .timeout, .advance | .timeout, .none
  | .mispick, .giveBack | .mispick, .advance | .mispick, .none
  | .slipped, .giveBack | .slipped, .advance | .slipped, .none
  | .doubleTurn, .retry | .doubleTurn, .hand | .doubleTurn, .none => false

/-- A motion entered again with a fresh time limit. -/
def reenter (m : Motion) (s : State) : State :=
  match m with
  | .present => enterPresent s
  | .platenDown => enterPlatenDown s
  | .platenUp => enterPlatenUp (s.seq.kind.getD .restore) s
  | .pick => enterPick s
  | .carry => retryCarry s
  | .lay => enterLay s
  | .home => enterHome s

/-- RETRY: after MISPICK at PICK with the retry count at 0, after SLIPPED at PLATEN_DOWN with the kind RESTORE, and
else at the failed motion. -/
def carryRetry (r : FaultRecord) (s : State) : State :=
  match r.cause with
  | .mispick => enterPick (s.setSeq { s.seq with retries := 0 })
  | .slipped => enterPlatenDown (s.setSeq { s.seq with kind := some .restore })
  | .timeout | .doubleTurn => reenter r.motion s

/-- The leaf that a HAND_WAIT raised by a resolution names (09 R168). -/
def waitLeaf (r : FaultRecord) (s : State) : Nat :=
  if r.owed.isSome then r.turned.getD s.seq.p else s.seq.p

/-- HAND: HAND_WAIT with the owed turn, or FOLD_WAIT after a PLATEN_UP of the kind FOLD_RAISE. -/
def carryHand (r : FaultRecord) (s : State) : State :=
  if r.motion = .platenUp ∧ s.seq.kind = some .foldRaise then enterFoldWait s
  else enterHandWait (waitLeaf r s) r.owed s

/-- The faces pressed between two leaves that lie together: the verso of the earlier and the recto of the later. -/
def hiddenFaces (a b : Nat) : List Target := [.side (min a b) .verso, .side (max a b) .recto]

/-- ADVANCE: the double turn stands as a turn of two leaves. -/
def carryAdvance (r : FaultRecord) (s : State) : State :=
  match r.turned, leafBeyond s r with
  | some t, some u =>
    let s := settleAll (hiddenFaces t u) .skipped (vacuumOff s)
    let p := if r.owed = some .forward then presentAfter s u else u
    enterHome (movePointer p (s.setSeq { s.seq with kind := some .restore }))
  | _, _ => s

/-- The recorded resolution carried out. -/
def carryOut (r : FaultRecord) (s : State) : State :=
  match r.resolution with
  | .retry => carryRetry r s
  | .hand => carryHand r s
  | .giveBack => enterHandWait (waitLeaf r s) r.owed s
  | .advance => carryAdvance r s
  | .none => s

/-! ### RESUME (02 R48) -/

/-- How the sequencer goes on from its rest state, `disturbed` telling whether the disturbed flag was set. -/
def resumeRest (disturbed : Bool) (s : State) : State :=
  match s.seq.state, disturbed with
  | .held, false | .panelHeld, false => grantHold s
  | .held, true => enterPresent (s.setSeq { s.seq with kind := some .restore })
  | .panelHeld, true => enterPlatenUp .foldRaise (setPhase .presentNext s)
  | .foldWait, true => enterPlatenUp .foldRaise s
  | _, _ => s

/-- What an accepted RESUME does. -/
def resumeVolume (s : State) : State :=
  let s' := setVolState .scanning (s.setSeq { s.seq with disturbed := false, fault := none })
  react (match s.seq.fault with
    | some r => carryOut r s'
    | none => resumeRest s.seq.disturbed s')

/-- RESUME. -/
def resumeRule (ws : List Slot) (s : State) : Answer :=
  if s.col.volState ≠ .paused then refuse .wrongState s
  else if ws ≠ [] then refuse .badForm s
  else if s.seq.manual.isSome then refuse .busy s
  else if s.seq.state = .fault ∧ (s.seq.fault.map (·.resolution)).getD .none = .none then refuse .wrongState s
  else ⟨.ok, [], resumeVolume s⟩

/-! ### STEP and SET MODE (02 R39, R49) -/

/-- Whether the sequencer waits in HELD in STEP mode on a settled opening (02 R37 case 5). -/
def waitsForStep (s : State) : Bool := isSettled s && s.seq.waiting

/-- What an accepted STEP does: the step is pending, and carried out at once where the sequencer waits for it. -/
def takeStep (d : Dir) (s : State) : State :=
  let s := s.setSeq { s.seq with pendingStep := some d }
  react (if waitsForStep s then carryStep d s else s)

/-- STEP. -/
def stepRule (ws : List Slot) (s : State) : Answer :=
  if s.col.volState ≠ .scanning ∧ s.col.volState ≠ .paused then refuse .wrongState s
  else if ws.length ≠ 1 then refuse .badForm s
  else match dirOf (ws.getD 0 0) with
    | none => refuse .outOfRange s
    | some d =>
      if s.seq.mode ≠ .step then refuse .wrongState s
      else if (turnedLeaf s d).isNone then refuse .outOfRange s
      else if s.seq.pendingStep.isSome then refuse .busy s
      else ⟨.ok, [], takeStep d s⟩

/-- What an accepted SET MODE does. -/
def changeMode (m : Mode) (d : Option Dir) (s : State) : State :=
  let waits := waitsForStep s && s.seq.mode == .step
  let s := s.setSeq { s.seq with
    mode := m
    dir := d.getD s.seq.dir
    pendingStep := if s.seq.mode = .step ∧ m ≠ .step then none else s.seq.pendingStep }
  react (if waits && m != .step then decideTurn s else s)

/-- SET MODE. -/
def modeRule (ws : List Slot) (s : State) : Answer :=
  if s.col.volState ≠ .scanning ∧ s.col.volState ≠ .paused then refuse .wrongState s
  else if ws.length ≠ 3 then refuse .badForm s
  else match readModeDir ws with
    | none => refuse .outOfRange s
    | some (m, d) => ⟨.ok, [], changeMode m d s⟩

/-! ### RESOLVE (02 R50) -/

/-- RESOLVE on the fault record held. -/
def resolveFault (q : Resolution) (r : FaultRecord) (s : State) : Answer :=
  if resolutionAllowed r.cause q = false then refuse .wrongState s
  else if q = .advance ∧ leafBeyond s r = none then refuse .outOfRange s
  else ⟨.ok, [], s.setSeq { s.seq with fault := some { r with resolution := q } }⟩

/-- RESOLVE. -/
def resolveRule (ws : List Slot) (s : State) : Answer :=
  if s.col.volState ≠ .paused then refuse .wrongState s
  else if ws.length ≠ 1 then refuse .badForm s
  else match resolutionOf (ws.getD 0 0) with
    | none => refuse .outOfRange s
    | some q =>
      match s.seq.state, s.seq.fault with
      | .fault, some r => resolveFault q r s
      | _, _ => refuse .wrongState s

/-! ### MOVE and RELEASE VACUUM (02 R51) -/

/-- MOVE. -/
def moveRule (ws : List Slot) (s : State) : Answer :=
  if s.col.volState = .scanning then refuse .wrongState s
  else if ws.length ≠ 1 then refuse .badForm s
  else match manualOf (ws.getD 0 0) with
    | none => refuse .outOfRange s
    | some m =>
      if s.seq.manual.isSome then refuse .busy s
      else ⟨.ok, [], disturb (startManual m s)⟩

/-- RELEASE VACUUM. -/
def releaseRule (ws : List Slot) (s : State) : Answer :=
  if s.col.volState = .scanning then refuse .wrongState s
  else if ws ≠ [] then refuse .badForm s
  else ⟨.ok, [], disturb (vacuumOff s)⟩

/-! ### The commands -/

/-- START (02 R45). -/
def execStart (tag : Byte) (ws : List Slot) (s : State) : Host.Outcome State Fault Refusal :=
  .next (directive tag 0x0020 (startRule ws) s)

/-- PAUSE (02 R46). -/
def execPause (tag : Byte) (ws : List Slot) (s : State) : Host.Outcome State Fault Refusal :=
  .next (directive tag 0x0021 (pauseRule ws) s)

/-- RESUME (02 R48). -/
def execResume (tag : Byte) (ws : List Slot) (s : State) : Host.Outcome State Fault Refusal :=
  .next (directive tag 0x0022 (resumeRule ws) s)

/-- STEP (02 R39). -/
def execStep (tag : Byte) (ws : List Slot) (s : State) : Host.Outcome State Fault Refusal :=
  .next (directive tag 0x0023 (stepRule ws) s)

/-- SET MODE (02 R49). -/
def execSetMode (tag : Byte) (ws : List Slot) (s : State) : Host.Outcome State Fault Refusal :=
  .next (directive tag 0x0024 (modeRule ws) s)

/-- RESOLVE (02 R50). -/
def execResolve (tag : Byte) (ws : List Slot) (s : State) : Host.Outcome State Fault Refusal :=
  .next (directive tag 0x0025 (resolveRule ws) s)

/-- MOVE (02 R51). -/
def execMove (tag : Byte) (ws : List Slot) (s : State) : Host.Outcome State Fault Refusal :=
  .next (directive tag 0x0026 (moveRule ws) s)

/-- RELEASE VACUUM (02 R51). -/
def execReleaseVacuum (tag : Byte) (ws : List Slot) (s : State) : Host.Outcome State Fault Refusal :=
  .next (directive tag 0x0027 (releaseRule ws) s)

end Sys2Proof.Machine
end

