-- ==== Sys2Proof/Machine/Resets.lean ====
section
/-! DEFINITION. The settings store, resets and start-up (10). -/

namespace Sys2Proof.Machine

/-! ### The image (10 R175) -/

/-- The image is valid: no store has been begun and left without its CRC, and the CRC matches the contents. -/
def imageValid (q : Store) : Bool := !q.torn && (q.crc == settingsCrc q.image)

/-- The two detail slots of STORE: the operation (STORE 0, RECALL 1) and the outcome (DONE 0, FAULT 1) (11 R181). -/
def storeDetail (recalled done : Bool) : List Slot := [slotBool recalled, slotBool !done]

/-! ### Storing and recalling (10 R176, R177) -/

/-- A store begins: the image is not valid from its first write. -/
def beginStore (s : State) : State :=
  { s with store := { s.store with state := .storing, elapsed := 0, torn := true } }

/-- STORE SETTINGS (10 R176). -/
def storeRule (ws : List Slot) (s : State) : Answer :=
  if ws ≠ [] then refuse .badForm s
  else if storeBusy s then refuse .busy s
  else ⟨.ok, [], beginStore s⟩

/-- A recall begins: the lock is closed at once. -/
def beginRecall (s : State) : State :=
  setLock .closed { s with store := { s.store with state := .recalling, elapsed := 0 } }

/-- RECALL SETTINGS (10 R177). -/
def recallRule (ws : List Slot) (s : State) : Answer :=
  if s.col.volState ≠ .empty ∧ s.col.volState ≠ .closed then refuse .volumeActive s
  else if ws ≠ [] then refuse .badForm s
  else if storeBusy s then refuse .busy s
  else ⟨.ok, [], beginRecall s⟩

/-- The store at rest. -/
def storeIdle (s : State) : State := { s with store := { s.store with state := .idle, elapsed := 0 } }

/-- The working values written to the image with the CRC over them. -/
def writeImage (s : State) : State :=
  { s with store := { s.store with image := s.settings, crc := settingsCrc s.settings, torn := false } }

/-- A store ends (10 R176): with `ok` the image holds the working values, and else it stays invalid. -/
def endStore (ok : Bool) (s : State) : State :=
  if s.store.state = .storing then
    idleBoundary (raise .store (storeDetail false ok) (storeIdle (if ok then writeImage s else s)))
  else s

/-- Every working value replaced by its image value, with the dark delay restarted (10 R177). A channel whose rating
comes in as 0 is dark for the rest of a running strobe (03 R55). -/
def loadImage (s : State) : State := darkenStrobes (restartDark { s with settings := s.store.image })

/-- A recall ends (10 R177). -/
def endRecall (s : State) : State :=
  if s.start = .running ∧ s.store.state = .recalling then
    let ok := imageValid s.store
    idleBoundary (raise .store (storeDetail true ok) (storeIdle (if ok then loadImage s else s)))
  else s

/-! ### Resets (10 R178, R179) -/

/-- Every block at its reset values, the reset held. The queue of commands, the lines outside and the image stand; a
store in flight leaves the image not valid. -/
def resetAll (cause : ResetCause) (s : State) : State :=
  { State.reset with
    pending := s.pending
    seq := .afterReset (cause != .powerOn && s.seq.outputs.vacuum)
    link := .afterReset cause
    store := { s.store with state := .idle, elapsed := 0, torn := s.store.torn || s.store.state == .storing }
    start := .held
    pins := s.pins }

/-- A reset's cause arrives (10 R178): a second cause only lengthens the hold, except that a power-on replaces the
recorded cause, and then the valve driver was unpowered. -/
def beginReset (cause : ResetCause) (s : State) : State :=
  if s.start = .held then
    if cause = .powerOn then
      { s with link := { s.link with cause := .powerOn }, seq := { s.seq with outputs := .braked false } }
    else s
  else resetAll cause s

/-- The reset is no longer held: start-up step 1 begins (10 R180). -/
def releaseReset (s : State) : State :=
  if s.start = .held then
    { s with start := .recall, store := { s.store with state := .recalling, elapsed := 0 } }
  else s

/-! ### Start-up (10 R180) -/

/-- The link becomes UP for the first time after a reset, and RESTARTED is raised. -/
def firstLinkUp (s : State) : State :=
  raise .restarted [slot s.link.cause.num]
    { s with start := .running, link := { s.link with up := true, lock := true } }

/-- Start-up step 1 ends: the image, or the factory values when it is not valid. A lock already present is taken at
that moment. -/
def endStartupRecall (s : State) : State :=
  if s.start = .recall then
    let ok := imageValid s.store
    let s := restartDark { s with settings := if ok then s.store.image else .factory }
    let s := raise .store (storeDetail true ok) (storeIdle { s with start := .awaitLink })
    if s.link.lock then idleBoundary (firstLinkUp s) else s
  else s

/-! ### The commands -/

/-- STORE SETTINGS (10 R176). -/
def execStoreSettings (tag : Byte) (ws : List Slot) (s : State) : Host.Outcome State Fault Refusal :=
  .next (directive tag 0x0064 (storeRule ws) s)

/-- RECALL SETTINGS (10 R177). -/
def execRecallSettings (tag : Byte) (ws : List Slot) (s : State) : Host.Outcome State Fault Refusal :=
  .next (directive tag 0x0065 (recallRule ws) s)

/-- POWER_ON (10 R178). -/
def execPowerOn (s : State) : Host.Outcome State Fault Refusal := .next (beginReset .powerOn s)

/-- RESET_LINE (10 R178). -/
def execResetLine (s : State) : Host.Outcome State Fault Refusal := .next (beginReset .resetLine s)

/-- CORE_SUPPLY (10 R178). -/
def execCoreSupply (s : State) : Host.Outcome State Fault Refusal := .next (beginReset .coreSupply s)

/-- RESET_RELEASED (10 R180). -/
def execResetReleased (s : State) : Host.Outcome State Fault Refusal := .next (releaseReset s)

/-- STARTUP_RECALL_DONE (10 R180). -/
def execStartupRecallDone (s : State) : Host.Outcome State Fault Refusal := .next (endStartupRecall s)

/-- STORE_DONE (10 R176). -/
def execStoreDone (ok : Bool) (s : State) : Host.Outcome State Fault Refusal := .next (endStore ok s)

/-- RECALL_DONE (10 R177). -/
def execRecallDone (s : State) : Host.Outcome State Fault Refusal := .next (endRecall s)

end Sys2Proof.Machine
end

