-- ==== Sys2Proof/Machine/LinkPort.lean ====
section
/-! DEFINITION. The station link port and the arbiter (08): READ STATUS, RESET PART, the directives of the notice unit
(09), and the events of the link. -/

namespace Sys2Proof.Machine

/-! ### READ STATUS (08 R164): the slots in the order of the rule (log 23) -/

/-- The fault record: a presence slot, motion, cause, the turned leaf with its presence, owed turn, resolution. -/
def faultSlots : Option FaultRecord → List Slot
  | some r => [1, slot r.motion.num, slot r.cause.num] ++ slotsOpt r.turned ++
      [slot (dirOptNum r.owed), slot r.resolution.num]
  | none => List.replicate 7 0

def seqStatus (q : Sequencer) : List Slot :=
  [slot q.state.num, slot q.mode.num, slot q.dir.num, slot q.p] ++ faultSlots q.fault ++
  slotsOpt (q.pendingPause.map (·.num)) ++ [slot (dirOptNum q.pendingStep)]

/-- A bank's level, and the dark cause of a DARK bank after its presence slot. -/
def bankStatus (s : State) (b : Side) : List Slot :=
  slot (bankLevel s b).num :: slotsOpt ((darkTest s b).map (·.num))

/-- A lamp channel's state, and the fault kind of a LOCKED_OUT one after its presence slot. -/
def lampStatus (s : State) (c : Nat) : List Slot :=
  slot (channelStateNum s c) :: slotsOpt ((lockoutOf s c).map lampFaultNum)

/-- The remaining seconds of the dark-delay timer, 0 when it is stopped; whether a part of a second counts as a whole
one is free (log 22). -/
def darkSeconds (left : Option Nat) : Nat :=
  let ms := left.getD 0
  if ms % 1000 ≠ 0 ∧ Config.roundDarkSecondsUp = true then ms / 1000 + 1 else ms / 1000

def lampsStatus (s : State) : List Slot :=
  bankStatus s .left ++ bankStatus s .right ++ (List.range 12).flatMap (lampStatus s) ++
  [slot s.lamps.supply.num, slot (darkSeconds s.lamps.darkLeft), slotBool s.lamps.darkExpired]

/-- The items of 05 R95. A channel is 'held back by the lamp supply' whenever capture is not allowed, whatever its state
(log 23). -/
def channelStatus (s : State) (b : Side) : List Slot :=
  let c := s.chan b
  slot c.state.num :: targetOptSlots c.target ++ slotsOpt (if c.shot = 0 then none else some c.shot) ++
  [slot c.takes, slotBool !(captureAllowed s)]

/-- The items of 06 R133. -/
def portStatus (p : Port) : List Slot :=
  slot p.state.num :: slotsOpt (p.armed.map (·.status.num)) ++
  [slotBool ((p.armed.map (·.fired.isSome)).getD false)] ++ slotsOpt (p.frame.map (·.number)) ++
  [slotBool p.waiting.isSome, slot (linesQueued p), slot (markersQueued p), slot p.frameNo, slot p.unsolicited,
   slot p.refused]

/-- The link state (UP 0, DOWN 1) and the counts. -/
def linkStatus (l : Link) : List Slot :=
  [slotBool !l.up, slot l.errors, slot l.discards, slot l.replies.length]

def sourceStatus (s : State) (i : Nat) : List Slot :=
  let q := s.notices.sources.getD i .clear
  [slotBool q.flag, slotBool q.sent, slot q.repeats, slotBool (s.settings.enables.getD i false)]

def noticesStatus (s : State) : List Slot :=
  (List.range 16).flatMap (sourceStatus s) ++ [slotBool s.notices.master]

/-- The results of READ STATUS. -/
def statusResults (s : State) : List Slot :=
  [slot s.col.volState.num, slot s.col.serial] ++ seqStatus s.seq ++ lampsStatus s ++
  [slot s.dose.lock.num, slot s.dose.mismatches] ++ channelStatus s .left ++ channelStatus s .right ++
  portStatus s.ports.left ++ portStatus s.ports.right ++ linkStatus s.link ++ noticesStatus s ++
  [slotBool (storeBusy s), slot s.link.cause.num]

/-- CLEAR: the link's and the ports' counts set to 0 (08 R164). -/
def clearCounts (s : State) : State :=
  { s with
    link := { s.link with errors := 0, discards := 0 }
    ports := { left := { s.ports.left with unsolicited := 0, refused := 0 }
               right := { s.ports.right with unsolicited := 0, refused := 0 } } }

/-- READ STATUS. -/
def statusRule (ws : List Slot) (s : State) : Answer :=
  if ws.length ≠ 1 then refuse .badForm s
  else ⟨.ok, statusResults s, if (ws.getD 0 0).getLsbD 0 then clearCounts s else s⟩

/-! ### RESET PART and the notice unit's directives -/

/-- RESET PART (08 R165): a link reset is marked as waiting. -/
def resetPartRule (ws : List Slot) (s : State) : Answer :=
  if ws ≠ [] then refuse .badForm s
  else if s.store.state = .storing then refuse .busy s
  else ⟨.ok, [], { s with link := { s.link with resetWaiting := true } }⟩

/-- CLEAR NOTICES (09 R172). -/
def clearNoticesRule (ws : List Slot) (s : State) : Answer :=
  if ws.length ≠ 1 then refuse .badForm s else ⟨.ok, [], clearSources (ws.getD 0 0) s⟩

/-- The seventeen enables replaced (09 R173): bit r - 1 for the source of rank r, bit 16 the master enable. -/
def setEnables (w : Slot) (s : State) : State :=
  { s with
    settings := { s.settings with enables := (List.range 16).map w.getLsbD }
    notices := { s.notices with master := w.getLsbD 16 } }

/-- SET NOTICE ENABLES (09 R173). -/
def enablesRule (ws : List Slot) (s : State) : Answer :=
  if ws.length ≠ 1 then refuse .badForm s
  else if storeBusy s then refuse .busy s
  else ⟨.ok, [], setEnables (ws.getD 0 0) s⟩

/-! ### The end of an upstream frame (08 R166) -/

/-- The transmitter has sent its frame (08 R166, log 10): after RESET PART's own reply the link reset is made (R165),
and else the next frame is taken while the link is UP. -/
def frameBoundary (s : State) : State :=
  if s.link.resetWaiting ∧ s.link.replies = [] then beginReset .linkReset s
  else if s.link.up then takeNext s
  else send none s

/-! ### The link's events (08 R156, R157, R159, R165) -/

/-- A bad frame while the link is UP (08 R156): counted, and LINK_FAULT raised with FRAME_BAD and the kind byte. -/
def takeBadFrame (kind : Byte) (s : State) : State :=
  if s.link.up then
    idleBoundary (raise .linkFault [0, kind.zeroExtend 32]
      { s with link := { s.link with errors := countUp 65535 s.link.errors } })
  else s

/-- A directive that finds the reply queue full (08 R159). -/
def discardDirective (s : State) : State :=
  if s.link.up ∧ s.link.resetWaiting = false ∧ 8 ≤ s.link.replies.length then
    { s with link := { s.link with discards := countUp 65535 s.link.discards } }
  else s

/-- Lock is lost (08 R157): LINK_FAULT, the link pause, a partly received frame dropped uncounted, and the link reset
that waits with its reply still queued (R165). A frame in sending runs on. -/
def loseLock (s : State) : State :=
  let s' := { s with link := { s.link with lock := false, up := false, incoming := [] } }
  if s.link.up then
    let s' := requestPause .link (raise .linkFault [1, 0] s')
    if s'.link.resetWaiting ∧ s'.link.replies ≠ [] then beginReset .linkReset s' else s'
  else s'

/-- Lock returns, or is first reported after a reset (08 R157, 10 R180): the link goes UP, and an idle transmitter
begins taking at once (R166). -/
def gainLock (s : State) : State :=
  let s' := { s with link := { s.link with lock := true } }
  match s.start with
  | .held | .recall => s'
  | .awaitLink => idleBoundary (firstLinkUp s')
  | .running => if s.link.up then s' else idleBoundary { s' with link := { s'.link with up := true } }

/-! ### The downstream receiver (08 R156, R157; log 43) -/

/-- A byte of a downstream frame received while the link is UP. -/
def receiveByte (s : State) (x : Byte) : State :=
  if s.link.up then { s with link := { s.link with incoming := s.link.incoming ++ [x] } } else s

/-- The last byte of a downstream frame has been received: the frame is checked, and the command it spells joins the
tail of the queue. -/
def receiveEnd (s : State) : State :=
  if s.link.up then
    { s with link := { s.link with incoming := [] }, pending := s.pending ++ [decodeFrame s.link.incoming] }
  else s

/-! ### The link reset (08 R165) -/

/-- The link reset is made (08 R165): once RESET PART's own reply has left the queue, or the link is DOWN. -/
def makeLinkReset (s : State) : State :=
  if s.link.resetWaiting ∧ (s.link.replies = [] ∨ s.link.up = false) then beginReset .linkReset s else s

/-! ### The commands -/

/-- READ STATUS (08 R164). -/
def execReadStatus (tag : Byte) (ws : List Slot) (s : State) : Host.Outcome State Fault Refusal :=
  .next (directive tag 0x0062 (statusRule ws) s)

/-- RESET PART (08 R165). -/
def execResetPart (tag : Byte) (ws : List Slot) (s : State) : Host.Outcome State Fault Refusal :=
  .next (directive tag 0x0063 (resetPartRule ws) s)

/-- CLEAR NOTICES (09 R172). -/
def execClearNotices (tag : Byte) (ws : List Slot) (s : State) : Host.Outcome State Fault Refusal :=
  .next (directive tag 0x0070 (clearNoticesRule ws) s)

/-- SET NOTICE ENABLES (09 R173). -/
def execSetNoticeEnables (tag : Byte) (ws : List Slot) (s : State) : Host.Outcome State Fault Refusal :=
  .next (directive tag 0x0071 (enablesRule ws) s)

/-- A directive of a code that names none (08 R158). -/
def execUnknown (tag : Byte) (code : Slot) (s : State) : Host.Outcome State Fault Refusal :=
  .next (directive tag code (refuse .unknown) s)

/-- BAD_FRAME (08 R156). -/
def execBadFrame (kind : Byte) (s : State) : Host.Outcome State Fault Refusal := .next (takeBadFrame kind s)

/-- DIRECTIVE_DISCARD (08 R159). -/
def execDirectiveDiscard (s : State) : Host.Outcome State Fault Refusal := .next (discardDirective s)

/-- DIRECTIVE_DROPPED_BEFORE_RESET (08 R165): dropped without a reply and without being counted. -/
def execDirectiveDroppedBeforeReset (s : State) : Host.Outcome State Fault Refusal := .next s

/-- LINK_DOWN (08 R157). -/
def execLinkDown (s : State) : Host.Outcome State Fault Refusal := .next (loseLock s)

/-- LINK_UP (08 R157, 10 R180). -/
def execLinkUp (s : State) : Host.Outcome State Fault Refusal := .next (gainLock s)

/-- UPSTREAM_FRAME_SENT (08 R166). -/
def execUpstreamFrameSent (s : State) : Host.Outcome State Fault Refusal := .next (frameBoundary s)

/-- LINK_RESET (08 R165, 10 R178). -/
def execLinkReset (s : State) : Host.Outcome State Fault Refusal := .next (makeLinkReset s)

end Sys2Proof.Machine
end

