-- ==== Sys2Proof/Machine/Tables.lean ====
section
/-! DEFINITION. READ TABLE and WRITE TABLE (08 R162, R163) over the fourteen tables, with the rules of the owning
chapters: 01 R22, 04 R71 R72 R78, 05 R94, 06 R117, 09 R173. -/

namespace Sys2Proof.Machine

/-! ### READ TABLE -/

/-- The entry of a settings table (0 to 9), none when the index lies outside the table. -/
def settingsEntry (s : State) (table i : Nat) : Option (List Slot) :=
  let q := s.settings
  match table with
  | 0 => q.calibration[i]?.map fun c => [slot c.rating, slotInt c.trim]
  | 1 => q.calibration[i]?.map fun c => [slot c.preview]
  | 2 => q.calibration[i]?.map fun c => [slot c.cap]
  | 3 => q.limits[i]?.map limitSlots
  | 4 => q.recipes[i]?.map recipeSlots
  | 5 => q.motionLimits[i]?.map fun n => [slot n]
  | 6 => q.polarities[i]?.map fun p => [slot p.num]
  | 7 => if i = 0 then some (geometrySlots q.geometry.left)
         else if i = 1 then some (geometrySlots q.geometry.right) else none
  | 8 => if i = 0 then some (timersSlots q) else none
  | 9 => q.noticeLevels[i]?.map fun l => [slot l.num]
  | _ => none

/-- The volume record with its serial, in the order of the table of 01 section 1.1 (log 24). -/
def volumeSlots (s : State) (v : VolumeRecord) : List Slot :=
  textSlots 36 v.shelfMark ++
  [slot v.part, slot v.binding.num, slot v.leafCount, slot v.doseClass, slot v.startLeaf] ++
  priorSlots v.priorDose ++ [slot s.col.serial]

/-- Tally fields as READ TABLE gives them: zeros while they are not initialised (log 25). -/
def readTallySlots (initialised : Bool) (q : TallyFields) : List Slot :=
  if initialised then tallySlots q else List.replicate 6 0

/-- A leaf record as read back (11 R183). -/
def leafEntry (initialised : Bool) (l : LeafRecord) : List Slot :=
  leafSlots l ++
  [slotBool l.written ||| (slotBool l.gathering.isSome <<< 1) ||| (slotBool (l.written && initialised) <<< 2),
   slot (l.gathering.getD 0)] ++
  readTallySlots initialised l.recto ++ readTallySlots initialised l.verso

/-- A fold-out entry as read back (11 R183): an unwritten one has no panels. The spec names a status slot and not its
bits nor its place: as in a leaf's, bit 0 is written and bit 2 tally initialised, bit 1 is clear, and the status and
the panel count come first (log 25). -/
def foldoutEntry (initialised : Bool) (e : Option (List PanelRecord)) : List Slot :=
  let ps := e.getD []
  [slotBool e.isSome ||| (slotBool (e.isSome && initialised) <<< 2), slot ps.length] ++
  ps.flatMap fun p => panelSlots p ++ readTallySlots initialised p.tally

/-- A gathering entry as read back: an unwritten one is all zeros (log 25). -/
def gatheringEntrySlots : Option GatheringEntry → List Slot
  | some g => labelSlots g.label ++ [slot g.leafCount]
  | none => [0, 0, 0, 0]

/-- The entry of a collation table (10 to 13), none when the index lies outside the table. -/
def collationEntry (s : State) (table i : Nat) : Option (List Slot) :=
  match table with
  | 10 => if i = 0 then s.col.volume.map (volumeSlots s) else none
  | 11 => s.col.leaves[i]?.map (leafEntry (tallyReadable s))
  | 12 => s.col.foldouts[i]?.map (foldoutEntry (tallyReadable s))
  | 13 => s.col.gatherings[i]?.map gatheringEntrySlots
  | _ => none

/-- An entry read, or OUT_OF_RANGE for an index outside its table. -/
def readAnswer (e : Option (List Slot)) (s : State) : Answer :=
  match e with
  | some results => ⟨.ok, results, s⟩
  | none => refuse .outOfRange s

/-- READ TABLE (08 R162): the checks of form, and then the table's own rule. -/
def readTableRule (ws : List Slot) (s : State) : Answer :=
  match ws with
  | [] => refuse .badForm s
  | t :: rest =>
    if 13 < num t then refuse .outOfRange s
    else match rest with
      | [i] =>
        if num t ≤ 9 then readAnswer (settingsEntry s (num t) (num i)) s
        else if s.col.volState = .empty then refuse .wrongState s
        else readAnswer (collationEntry s (num t) (num i)) s
      | _ => refuse .badForm s

/-! ### WRITE TABLE -/

/-- The working settings replaced. -/
def setSettings (q : Settings) (s : State) : State := { s with settings := q }

/-- The answer to a write that held `entry` for the fields written: OK_CLAMPED when a quantity was brought into range,
OK otherwise. -/
def writeAnswer (written entry : List Slot) (s : State) : Answer :=
  if written = entry then ⟨.ok, [], s⟩ else ⟨.okClamped, [], s⟩

/-- A write to a table of `entries` entries of `size` slots that needs no lock (05 R94, 06 R117, 08 R163, 09 R173):
`ws` is the entry index and the fields. -/
def openWrite (entries size : Nat) (write : Nat → List Slot → State → Answer) (ws : List Slot) (s : State) : Answer :=
  if ws.length ≠ size + 1 then refuse .badForm s
  else if storeBusy s then refuse .busy s
  else if entries ≤ at' ws 0 then refuse .outOfRange s
  else write (at' ws 0) (ws.drop 1) s

/-- A write to a table that the conservation lock guards, judged in the order of 04 R72. `idleOnly`: the volume state
must be EMPTY or CLOSED. -/
def guardedWrite (entries size : Nat) (idleOnly : Bool) (write : Nat → List Slot → State → Answer) (ws : List Slot)
    (s : State) : Answer :=
  if ws.length ≠ size + 1 then refuse .badForm s
  else if storeBusy s then refuse .busy s
  else if s.dose.lock = .closed then refuse .locked s
  else if idleOnly ∧ s.col.volState ≠ .empty ∧ s.col.volState ≠ .closed then refuse .volumeActive s
  else if entries ≤ at' ws 0 then refuse .outOfRange s
  else write (at' ws 0) (ws.drop 1) s

/-- A channel's calibration changed. -/
def modifyCal (c : Nat) (g : Calibration → Calibration) (s : State) : State :=
  setSettings { s.settings with calibration := s.settings.calibration.modify c g } s

/-- The fields of a lamp calibration entry brought into range (04 R71): rating and trim. -/
def readRating (fs : List Slot) : Nat × Int :=
  (clampNat 0 65535 (at' fs 0), clampInt (-256) 255 (fs.getD 1 0).toInt)

/-- A lamp calibration entry written (04 R71). A channel whose rating becomes 0 is dark for the rest of a running strobe
(03 R55). -/
def writeCalibration (i : Nat) (fs : List Slot) (s : State) : Answer :=
  let (r, t) := readRating fs
  writeAnswer fs [slot r, slotInt t] (darkenStrobes (modifyCal i ({ · with rating := r, trim := t }) s))

/-- A duty brought into range (04 R71). -/
def readDuty (fs : List Slot) : Nat := clampNat 0 255 (at' fs 0)

def writeCap (i : Nat) (fs : List Slot) (s : State) : Answer :=
  writeAnswer fs [slot (readDuty fs)] (modifyCal i ({ · with cap := readDuty fs }) s)

def writePreview (i : Nat) (fs : List Slot) (s : State) : Answer :=
  writeAnswer fs [slot (readDuty fs)] (modifyCal i ({ · with preview := readDuty fs }) s)

/-- A dose limits entry written (04 R78). -/
def writeLimits (i : Nat) (fs : List Slot) (s : State) : Answer :=
  let l := readLimits fs
  writeAnswer fs (limitSlots l) (setSettings { s.settings with limits := s.settings.limits.set i l } s)

/-- A recipe written (05 R94). -/
def writeRecipe (i : Nat) (fs : List Slot) (s : State) : Answer :=
  let r := readRecipe fs
  writeAnswer fs (recipeSlots r) (setSettings { s.settings with recipes := s.settings.recipes.set i r } s)

/-- A motion limit written (08 R163). -/
def writeMotionLimit (i : Nat) (fs : List Slot) (s : State) : Answer :=
  let n := clampNat 100 20000 (at' fs 0)
  writeAnswer fs [slot n] (setSettings { s.settings with motionLimits := s.settings.motionLimits.set i n } s)

/-- A sensor polarity written (08 R163). -/
def writePolarity (i : Nat) (fs : List Slot) (s : State) : Answer :=
  match polarityNumbered (fs.getD 0 0) with
  | none => refuse .outOfRange s
  | some p => ⟨.ok, [], setSettings { s.settings with polarities := s.settings.polarities.set i p } s⟩

/-- The port of a geometry entry. -/
def portNumbered (i : Nat) : Side := if i = 0 then .left else .right

/-- A geometry entry written (06 R117). -/
def writeGeometry (i : Nat) (fs : List Slot) (s : State) : Answer :=
  let g := readGeometry fs
  writeAnswer fs (geometrySlots g)
    (setSettings { s.settings with geometry := s.settings.geometry.set (portNumbered i) g } s)

/-- The timers written (08 R163). -/
def writeTimers (_ : Nat) (fs : List Slot) (s : State) : Answer :=
  let q := { s.settings with
    darkDelay := clampNat 0 600 (at' fs 0)
    frameTimeout := clampNat 200 10000 (at' fs 1)
    pickRetries := clampNat 0 3 (at' fs 2) }
  writeAnswer fs (timersSlots q) (setSettings q s)

/-- A notice level written (09 R173): RESTARTED, entry 15, stays URGENT. -/
def writeLevel (i : Nat) (fs : List Slot) (s : State) : Answer :=
  match levelNumbered (fs.getD 0 0) with
  | none => refuse .outOfRange s
  | some l =>
    if i = 15 ∧ l = .normal then refuse .outOfRange s
    else ⟨.ok, [], setSettings { s.settings with noticeLevels := s.settings.noticeLevels.set i l } s⟩

/-- WRITE TABLE naming no settings table (08 R162). DESIGN CHOICE (log 48): one that names a collation table is
OUT_OF_RANGE whatever its slot count, since R162 gives a wrong count BAD_FORM and no order of the two. -/
def writeOtherRule (ws : List Slot) (s : State) : Answer :=
  match ws with
  | [] => refuse .badForm s
  | _ :: _ => refuse .outOfRange s

/-! ### The commands -/

/-- READ TABLE of a settings table (08 R162). -/
def execReadTableSettings (tag : Byte) (ws : List Slot) (s : State) : Host.Outcome State Fault Refusal :=
  .next (directive tag 0x0060 (readTableRule ws) s)

/-- READ TABLE of a collation table (01 R22). -/
def execReadTableCollation (tag : Byte) (ws : List Slot) (s : State) : Host.Outcome State Fault Refusal :=
  .next (directive tag 0x0060 (readTableRule ws) s)

/-- WRITE TABLE, lamp calibration (04 R71, R72). -/
def execWriteLampCalibration (tag : Byte) (ws : List Slot) (s : State) : Host.Outcome State Fault Refusal :=
  .next (directive tag 0x0061 (guardedWrite 12 2 false writeCalibration ws) s)

/-- WRITE TABLE, duty caps (04 R71, R72). -/
def execWriteDutyCaps (tag : Byte) (ws : List Slot) (s : State) : Host.Outcome State Fault Refusal :=
  .next (directive tag 0x0061 (guardedWrite 12 1 false writeCap ws) s)

/-- WRITE TABLE, preview duties (04 R71, R72). -/
def execWritePreviewDuties (tag : Byte) (ws : List Slot) (s : State) : Host.Outcome State Fault Refusal :=
  .next (directive tag 0x0061 (guardedWrite 12 1 false writePreview ws) s)

/-- WRITE TABLE, dose limits (04 R72, R78). -/
def execWriteDoseLimits (tag : Byte) (ws : List Slot) (s : State) : Host.Outcome State Fault Refusal :=
  .next (directive tag 0x0061 (guardedWrite 4 3 true writeLimits ws) s)

/-- WRITE TABLE, recipes (05 R94). -/
def execWriteRecipes (tag : Byte) (ws : List Slot) (s : State) : Host.Outcome State Fault Refusal :=
  .next (directive tag 0x0061 (openWrite 16 26 writeRecipe ws) s)

/-- WRITE TABLE, motion limits (08 R163). -/
def execWriteMotionLimits (tag : Byte) (ws : List Slot) (s : State) : Host.Outcome State Fault Refusal :=
  .next (directive tag 0x0061 (openWrite 7 1 writeMotionLimit ws) s)

/-- WRITE TABLE, sensor polarities (08 R163). -/
def execWriteSensorPolarities (tag : Byte) (ws : List Slot) (s : State) : Host.Outcome State Fault Refusal :=
  .next (directive tag 0x0061 (openWrite 11 1 writePolarity ws) s)

/-- WRITE TABLE, frame geometry and window (06 R117). -/
def execWriteFrameGeometry (tag : Byte) (ws : List Slot) (s : State) : Host.Outcome State Fault Refusal :=
  .next (directive tag 0x0061 (openWrite 2 7 writeGeometry ws) s)

/-- WRITE TABLE, timers (08 R163). -/
def execWriteTimers (tag : Byte) (ws : List Slot) (s : State) : Host.Outcome State Fault Refusal :=
  .next (directive tag 0x0061 (openWrite 1 3 writeTimers ws) s)

/-- WRITE TABLE, notice levels (09 R173). -/
def execWriteNoticeLevels (tag : Byte) (ws : List Slot) (s : State) : Host.Outcome State Fault Refusal :=
  .next (directive tag 0x0061 (openWrite 16 1 writeLevel ws) s)

/-- WRITE TABLE naming a collation table or no table (08 R162). -/
def execWriteTableOther (tag : Byte) (ws : List Slot) (s : State) : Host.Outcome State Fault Refusal :=
  .next (directive tag 0x0061 (writeOtherRule ws) s)

end Sys2Proof.Machine
end

