-- ==== Sys2Proof/Machine/Dispatch.lean ====
section
/-! DEFINITION. One arm for each command: the meaning of every row of spec/opcode_table.json. -/

namespace Sys2Proof.Machine

def exec (i : Instr) (s : State) : Host.Outcome State Fault Refusal :=
  match i with
  | .openVolume tag ws => Sys2Proof.Machine.execOpenVolume tag ws s
  | .writeLeaves tag ws => Sys2Proof.Machine.execWriteLeaves tag ws s
  | .writeFoldouts tag ws => Sys2Proof.Machine.execWriteFoldouts tag ws s
  | .writeGatherings tag ws => Sys2Proof.Machine.execWriteGatherings tag ws s
  | .endLoading tag ws => Sys2Proof.Machine.execEndLoading tag ws s
  | .amendLeaf tag ws => Sys2Proof.Machine.execAmendLeaf tag ws s
  | .skipLeaf tag ws => Sys2Proof.Machine.execSkipLeaf tag ws s
  | .discardVolume tag ws => Sys2Proof.Machine.execDiscardVolume tag ws s
  | .start tag ws => Sys2Proof.Machine.execStart tag ws s
  | .pause tag ws => Sys2Proof.Machine.execPause tag ws s
  | .resume tag ws => Sys2Proof.Machine.execResume tag ws s
  | .step tag ws => Sys2Proof.Machine.execStep tag ws s
  | .setMode tag ws => Sys2Proof.Machine.execSetMode tag ws s
  | .resolve tag ws => Sys2Proof.Machine.execResolve tag ws s
  | .move tag ws => Sys2Proof.Machine.execMove tag ws s
  | .releaseVacuum tag ws => Sys2Proof.Machine.execReleaseVacuum tag ws s
  | .clearLamp tag ws => Sys2Proof.Machine.execClearLamp tag ws s
  | .lock tag ws => Sys2Proof.Machine.execLock tag ws s
  | .unlock tag ws => Sys2Proof.Machine.execUnlock tag ws s
  | .setKey tag ws => Sys2Proof.Machine.execSetKey tag ws s
  | .readTally tag ws => Sys2Proof.Machine.execReadTally tag ws s
  | .closeVolume tag ws => Sys2Proof.Machine.execCloseVolume tag ws s
  | .retake tag ws => Sys2Proof.Machine.execRetake tag ws s
  | .readClosure tag ws => Sys2Proof.Machine.execReadClosure tag ws s
  | .readTableSettings tag ws => Sys2Proof.Machine.execReadTableSettings tag ws s
  | .readTableCollation tag ws => Sys2Proof.Machine.execReadTableCollation tag ws s
  | .writeLampCalibration tag ws => Sys2Proof.Machine.execWriteLampCalibration tag ws s
  | .writeDutyCaps tag ws => Sys2Proof.Machine.execWriteDutyCaps tag ws s
  | .writePreviewDuties tag ws => Sys2Proof.Machine.execWritePreviewDuties tag ws s
  | .writeDoseLimits tag ws => Sys2Proof.Machine.execWriteDoseLimits tag ws s
  | .writeRecipes tag ws => Sys2Proof.Machine.execWriteRecipes tag ws s
  | .writeMotionLimits tag ws => Sys2Proof.Machine.execWriteMotionLimits tag ws s
  | .writeSensorPolarities tag ws => Sys2Proof.Machine.execWriteSensorPolarities tag ws s
  | .writeFrameGeometry tag ws => Sys2Proof.Machine.execWriteFrameGeometry tag ws s
  | .writeTimers tag ws => Sys2Proof.Machine.execWriteTimers tag ws s
  | .writeNoticeLevels tag ws => Sys2Proof.Machine.execWriteNoticeLevels tag ws s
  | .writeTableOther tag ws => Sys2Proof.Machine.execWriteTableOther tag ws s
  | .readStatus tag ws => Sys2Proof.Machine.execReadStatus tag ws s
  | .resetPart tag ws => Sys2Proof.Machine.execResetPart tag ws s
  | .storeSettings tag ws => Sys2Proof.Machine.execStoreSettings tag ws s
  | .recallSettings tag ws => Sys2Proof.Machine.execRecallSettings tag ws s
  | .clearNotices tag ws => Sys2Proof.Machine.execClearNotices tag ws s
  | .setNoticeEnables tag ws => Sys2Proof.Machine.execSetNoticeEnables tag ws s
  | .unknown tag code => Sys2Proof.Machine.execUnknown tag code s
  | .badFrame kind => Sys2Proof.Machine.execBadFrame kind s
  | .directiveDiscard => Sys2Proof.Machine.execDirectiveDiscard s
  | .directiveDroppedBeforeReset => Sys2Proof.Machine.execDirectiveDroppedBeforeReset s
  | .linkDown => Sys2Proof.Machine.execLinkDown s
  | .linkUp => Sys2Proof.Machine.execLinkUp s
  | .upstreamFrameSent => Sys2Proof.Machine.execUpstreamFrameSent s
  | .linkReset => Sys2Proof.Machine.execLinkReset s
  | .powerOn => Sys2Proof.Machine.execPowerOn s
  | .resetLine => Sys2Proof.Machine.execResetLine s
  | .coreSupply => Sys2Proof.Machine.execCoreSupply s
  | .resetReleased => Sys2Proof.Machine.execResetReleased s
  | .startupRecallDone => Sys2Proof.Machine.execStartupRecallDone s
  | .storeDone ok => Sys2Proof.Machine.execStoreDone ok s
  | .recallDone => Sys2Proof.Machine.execRecallDone s
  | .homeArrival active => Sys2Proof.Machine.execHomeArrival active s
  | .apexArrival active => Sys2Proof.Machine.execApexArrival active s
  | .farPositionArrival side active => Sys2Proof.Machine.execFarPositionArrival side active s
  | .vacuumGoodArrival => Sys2Proof.Machine.execVacuumGoodArrival s
  | .vacuumGoodRelease => Sys2Proof.Machine.execVacuumGoodRelease s
  | .platenDownArrival => Sys2Proof.Machine.execPlatenDownArrival s
  | .platenDownRelease => Sys2Proof.Machine.execPlatenDownRelease s
  | .platenUpArrival active => Sys2Proof.Machine.execPlatenUpArrival active s
  | .contactArrival side active => Sys2Proof.Machine.execContactArrival side active s
  | .leafEdge active => Sys2Proof.Machine.execLeafEdge active s
  | .pedalPress active => Sys2Proof.Machine.execPedalPress active s
  | .motionExpiry => Sys2Proof.Machine.execMotionExpiry s
  | .manualMotionExpiry => Sys2Proof.Machine.execManualMotionExpiry s
  | .gateRequest bank => Sys2Proof.Machine.execGateRequest bank s
  | .strobeEnd bank => Sys2Proof.Machine.execStrobeEnd bank s
  | .frameTimeout bank => Sys2Proof.Machine.execFrameTimeout bank s
  | .channelLockout channel fault => Sys2Proof.Machine.execChannelLockout channel fault s
  | .supplyLoss => Sys2Proof.Machine.execSupplyLoss s
  | .supplyGoodSample => Sys2Proof.Machine.execSupplyGoodSample s
  | .supplyRecovered => Sys2Proof.Machine.execSupplyRecovered s
  | .darkDelayExpiry => Sys2Proof.Machine.execDarkDelayExpiry s
  | .doseTick first => Sys2Proof.Machine.execDoseTick first s
  | .volumeClockSecond => Sys2Proof.Machine.execVolumeClockSecond s
  | .frameStart port => Sys2Proof.Machine.execFrameStart port s
  | .line port pixels => Sys2Proof.Machine.execLine port pixels s
  | .frameEnd port => Sys2Proof.Machine.execFrameEnd port s
  | .stall port => Sys2Proof.Machine.execStall port s

end Sys2Proof.Machine
end

