-- ==== Sys2Proof/Machine/Tick.lean ====
section
/-! DEFINITION. One millisecond of the part, which passes when no command waits (log 1, 2): every timer runs on, the
inputs and the lamp supply are sampled, a gate request that waits is taken, and an idle transmitter takes what came to
be offered. -/

namespace Sys2Proof.Machine

/-- The inputs in index order. -/
def allInputs : List Input :=
  [.home, .apex, .farLeft, .farRight, .vacuumGood, .platenDown, .platenUp, .leftContact, .rightContact, .leafEdge,
   .pedal]

/-- One sample of one input (02 R25): its debounced level changes when two successive samples give the new reading. -/
def sampleInput (s : State) (i : Input) : State :=
  let now := reading (polarityOf s i) (s.pins.inputs.get i)
  let last := s.seq.readings.get i
  let s' := s.setSeq { s.seq with readings := s.seq.readings.set i now }
  if now = last ∧ now ≠ s.seq.levels.get i then arrive i now s' else s'

/-- One sample of every input. -/
def sampleInputs (s : State) : State := allInputs.foldl sampleInput s

/-- One sample of the lamp supply (03 R65). -/
def sampleSupply (s : State) : State := if s.pins.supplyGood then goodSupply s else badSupply s

/-- Ten slots of a bank's scan (03 R54), and the start of the slot that follows them: the strobe ends with its last
scan (R61). -/
def runScans (b : Side) (s : State) : State :=
  let slots := s.lamps.scanSlot.get b + 10
  let s' := startSlot b (slots % 6) s
  match s.lamps.strobe.get b with
  | none => s'
  | some q =>
    if q.scans ≤ slots / 6 then react (endStrobe b s')
    else setStrobe b (some { q with scans := q.scans - slots / 6 }) s'

/-- One millisecond of a channel's frame timeout (05 R106). -/
def runFrameTimeout (b : Side) (s : State) : State :=
  match (s.chan b).timeout with
  | none => s
  | some n => if n ≤ 1 then react (expireFrame b s) else s.setChan b { s.chan b with timeout := some (n - 1) }

/-- One millisecond of a port's stall timer (06 R130). -/
def runStall (b : Side) (s : State) : State :=
  match (s.port b).frame with
  | none => s
  | some f =>
    if f.stallLeft ≤ 1 then react (endFrame b .stall s)
    else s.setPort b { s.port b with frame := some { f with stallLeft := f.stallLeft - 1 } }

/-- One millisecond of the time limit of the motion in flight (02 R30). -/
def runMotion (s : State) : State :=
  match s.seq.state.motion with
  | none => s
  | some _ => if s.seq.motionLeft ≤ 1 then expireMotion s else s.setSeq { s.seq with motionLeft := s.seq.motionLeft - 1 }

/-- One millisecond of the time limit of the manual motion in flight (02 R51). -/
def runManual (s : State) : State :=
  match s.seq.manual with
  | none => s
  | some _ => if s.seq.manualLeft ≤ 1 then expireManual s else s.setSeq { s.seq with manualLeft := s.seq.manualLeft - 1 }

/-- One millisecond of the dark-delay timer (03 R63). -/
def runDark (s : State) : State :=
  match s.lamps.darkLeft with
  | none | some 0 => s
  | some 1 => darkExpiry s
  | some (n + 2) => { s with lamps := { s.lamps with darkLeft := some (n + 1) } }

/-- A channel in GATING brings its gate request (05 R99). -/
def runGate (b : Side) (s : State) : State := if (s.chan b).state = .gating then react (judgeGate b s) else s

/-- One millisecond of the dose tick's period (04 R86). -/
def runDose (s : State) : State :=
  if 100 ≤ s.dose.tickMs + 1 then tickDose .left s
  else { s with dose := { s.dose with tickMs := s.dose.tickMs + 1 } }

/-- One millisecond of the volume clock (07 R140). -/
def runClock (s : State) : State :=
  if s.tally.clockRuns then
    if 1000 ≤ s.tally.clockMs + 1 then clockSecond s
    else { s with tally := { s.tally with clockMs := s.tally.clockMs + 1 } }
  else s

/-- One millisecond of a store or recall (10 R175). -/
def runStore (s : State) : State :=
  match s.store.state with
  | .idle => s
  | .storing | .recalling => { s with store := { s.store with elapsed := s.store.elapsed + 1 } }

/-- The two banks, ports or channels, left before right. -/
def onBoth (f : Side → State → State) (s : State) : State := f .right (f .left s)

/-- What runs down in one millisecond, in the order of log 2: each timer before what may start it afresh. -/
def runTimers (s : State) : State :=
  onBoth runScans (onBoth runStall (onBoth runFrameTimeout (runDark (runManual (runMotion s)))))

/-- One millisecond, in the order of log 2; nothing runs while a reset is held. -/
def tick (s : State) : State :=
  event s fun s => runStore (runClock (runDose (onBoth runGate (sampleSupply (sampleInputs (runTimers s))))))

end Sys2Proof.Machine
end

