-- ==== Sys2Proof/Safety.lean ====
section
/-! DEFINITION. What holds of the part at every moment: the laws that the rules state of its blocks, in the words that
claims use. -/

namespace Sys2Proof.Machine

/-! ### The conservation lock (04 R70, R88) -/

/-- While the lock is OPEN the mismatch count is 0, and the count is never above 4. -/
def lockLaw (s : State) : Prop :=
  s.dose.mismatches ≤ 4 ∧ (s.dose.lock = .unlocked → s.dose.mismatches = 0)

/-! ### The link (08 R156, R159) -/

/-- The reply queue holds at most 8 replies, and both counts are 16-bit counts. -/
def linkLaw (l : Link) : Prop := l.replies.length ≤ 8 ∧ l.errors ≤ 65535 ∧ l.discards ≤ 65535

/-! ### The arbiter (08 R166) -/

/-- Nothing is offered to the upstream transmitter: no reply, no eligible notice and no burst. -/
def nothingOffered (s : State) : Prop :=
  s.link.replies = [] ∧ (∀ i, i < 16 → eligible s i = false) ∧ ∀ b, (s.port b).queue = []

/-- While the link is UP the transmitter is idle only when nothing is offered to it. -/
def idleLaw (s : State) : Prop := s.link.up = true → s.link.sending = none → nothingOffered s

/-! ### Lamps (03 R54, R56) -/

/-- A lock-out for each of the twelve channels, and each scan at one of its six slots. -/
def lampsLaw (l : Lamps) : Prop := l.lockouts.length = 12 ∧ l.scanSlot.left < 6 ∧ l.scanSlot.right < 6

/-! ### Imager ports (06 R115, R122) -/

/-- What a port holds in each of its states. In RECEIVING a marker place is left for the trailer. -/
def Port.shape (p : Port) : Prop :=
  match p.state with
  | .idle => p.armed = none ∧ p.waiting = none ∧ p.frame = none
  | .armed => p.armed ≠ none ∧ p.waiting = none ∧ p.frame = none
  | .receiving => p.armed ≠ none ∧ p.frame ≠ none ∧ markersQueued p ≤ 3

/-- A port's law: its shape, at most 64 lines and four markers queued, and 16-bit counts. -/
def Port.law (p : Port) : Prop :=
  p.shape ∧ linesQueued p ≤ 64 ∧ markersQueued p ≤ 4 ∧ p.frameNo ≤ 65535 ∧ p.unsolicited ≤ 65535 ∧ p.refused ≤ 65535

/-- Both ports keep their law. -/
def portsLaw (s : State) : Prop := s.ports.left.law ∧ s.ports.right.law

/-! ### Notices (09 R169, R170) -/

/-- A source's law: the repeat count is at most 255, and a source whose flag is clear holds nothing. -/
def SourceState.law (q : SourceState) : Prop :=
  q.repeats ≤ 255 ∧ (q.flag = false → q = .clear)

/-- Sixteen sources, each with its law. -/
def noticesLaw (s : State) : Prop := s.notices.sources.length = 16 ∧ ∀ q ∈ s.notices.sources, q.law

/-! ### Settings (04 R71 R78, 05 R93, 06 R117, 08 R163, 09 R173) -/

def Calibration.law (c : Calibration) : Prop :=
  c.rating ≤ 65535 ∧ -256 ≤ c.trim ∧ c.trim ≤ 255 ∧ c.cap ≤ 255 ∧ c.preview ≤ 255

def DoseLimit.law (l : DoseLimit) : Prop := l.side ≤ 4000000000 ∧ l.volume < 2 ^ 48

def Shot.law (q : Shot) : Prop :=
  q.duties.length = 6 ∧ (∀ d ∈ q.duties, d ≤ 255) ∧ 100 ≤ q.time ∧ q.time ≤ 50000

def Recipe.law (r : Recipe) : Prop :=
  1 ≤ r.shotCount ∧ r.shotCount ≤ 3 ∧ r.shots.length = 3 ∧ (∀ q ∈ r.shots, q.law) ∧ r.lo ≤ r.hi ∧ r.hi ≤ 65535 ∧
  r.clipLimit ≤ 1000 ∧ 1 ≤ r.takeLimit ∧ r.takeLimit ≤ 7

def Geometry.law (g : Geometry) : Prop :=
  1024 ≤ g.width ∧ g.width ≤ 12288 ∧ g.width % 2 = 0 ∧ 1024 ≤ g.height ∧ g.height ≤ 16384 ∧ g.x0 ≤ g.x1 ∧
  g.x1 < g.width ∧ g.y0 ≤ g.y1 ∧ g.y1 < g.height ∧ g.clipLevel ≤ 65535

/-- Every setting lies in its range, every table has its entries, and RESTARTED is URGENT. -/
def Settings.law (q : Settings) : Prop :=
  (q.calibration.length = 12 ∧ ∀ c ∈ q.calibration, c.law) ∧ (q.limits.length = 4 ∧ ∀ l ∈ q.limits, l.law) ∧
  (q.recipes.length = 16 ∧ ∀ r ∈ q.recipes, r.law) ∧
  (q.motionLimits.length = 7 ∧ ∀ n ∈ q.motionLimits, 100 ≤ n ∧ n ≤ 20000) ∧ q.polarities.length = 11 ∧
  (q.geometry.left.law ∧ q.geometry.right.law) ∧
  (q.darkDelay ≤ 600 ∧ 200 ≤ q.frameTimeout ∧ q.frameTimeout ≤ 10000 ∧ q.pickRetries ≤ 3) ∧ q.enables.length = 16 ∧
  (q.noticeLevels.length = 16 ∧ q.noticeLevels[15]? = some .urgent)

/-- The working settings and the image keep the law. -/
def settingsLaw (s : State) : Prop := s.settings.law ∧ s.store.image.law

/-! ### The tally (07 R135, R137, R142) -/

/-- The states of every side, and of every panel, in digest order. -/
def sideStates (s : State) : List TState := (allSides s).filterMap (stateOf s)

def panelStates (s : State) : List TState := (allPanels s).filterMap (stateOf s)

/-- While a volume is held there is a record for each of its N leaves; from READY to CLOSED every counter is the
number of targets in its state. -/
def countersLaw (s : State) : Prop :=
  (s.col.volState ≠ .empty → s.col.leaves.length = leafCount s) ∧
  (tallyReadable s = true →
    s.tally.sideCounts = countStates (sideStates s) ∧ s.tally.panelCounts = countStates (panelStates s))

/-- The sum of all seven counts. -/
def Counts.total (c : Counts) : Nat :=
  c.pending + c.captured + c.rejected + c.withheld + c.suppressed + c.skipped + c.absent

/-- The retake list: ascending without duplicates, at most 128 entries, each naming a PENDING side; empty while no
tally is kept. -/
def retakesLaw (s : State) : Prop :=
  (s.tally.retakes.map retakeKey).Pairwise (· < ·) ∧ s.tally.retakes.length ≤ 128 ∧
  (∀ e ∈ s.tally.retakes, stateOf s (.side e.1 e.2) = some .pending) ∧
  (tallyReadable s = false → s.tally.retakes = [])

/-! ### Light dose (04 R79, R80) -/

/-- The prior dose of the volume held, 0 when absent. -/
def priorDose (s : State) : Nat := (s.col.volume.bind (·.priorDose)).getD 0

/-- The sum of the doses of all sides and panels. -/
def doseSum (s : State) : Nat := ((allTargets s).map (doseOf s)).sum

/-- From READY on, the volume dose is the prior dose and every dose charged to a target. -/
def accountLaw (s : State) : Prop := tallyReadable s = true → s.dose.volDose = priorDose s + doseSum s

/-- A volume that can take light: READY, SCANNING or PAUSED. -/
def volumeActive (s : State) : Prop :=
  s.col.volState = .ready ∨ s.col.volState = .scanning ∨ s.col.volState = .paused

/-- The volume dose never exceeds V and no target's dose exceeds S; while the volume is loaded its prior dose fits. -/
def limitsLaw (s : State) : Prop :=
  (volumeActive s → s.dose.volDose ≤ (doseLimits s).volume ∧ ∀ t, doseOf s t ≤ (doseLimits s).side) ∧
  (s.col.volState = .loading → priorDose s ≤ (doseLimits s).volume)

/-- Before the first link UP after a reset there is no volume, the link is UP only after it, and a recall runs only
while the volume is EMPTY or CLOSED (10 R177, R180). -/
def quietLaw (s : State) : Prop :=
  (s.start ≠ .running → s.col.volState = .empty) ∧ (s.link.up = true → s.start = .running) ∧
  (s.store.state = .recalling → s.col.volState = .empty ∨ s.col.volState = .closed)

end Sys2Proof.Machine
end

