-- ==== Sys2Proof/WellFormed.lean ====
section
/-! DEFINITION. The commands that the wire and the cradle can bring: a directive's payload fits its frame, its code
and its table number are those of its row. -/

namespace Sys2Proof

open Machine

/-- The directive codes of the part (11 R183). -/
def directiveCodes : List Slot :=
  [0x0010, 0x0011, 0x0012, 0x0013, 0x0014, 0x0015, 0x0016, 0x0017, 0x0020, 0x0021, 0x0022, 0x0023, 0x0024, 0x0025,
   0x0026, 0x0027, 0x0030, 0x0031, 0x0032, 0x0033, 0x0040, 0x0041, 0x0042, 0x0043, 0x0060, 0x0061, 0x0062, 0x0063,
   0x0064, 0x0065, 0x0070, 0x0071]

/-- The payload of a directive holds at most 2,048 bytes, 512 slots (08 R155). -/
def payloadFits (i : Instr) : Bool :=
  match payloadOf i with
  | some p => decide (p.2.length ≤ 512)
  | none => true

/-- WRITE TABLE of no settings table: no table number, or one above 9. -/
def namesNoSettings (ws : List Slot) : Bool :=
  match ws with
  | [] => true
  | t :: _ => decide (9 < t.toNat)

/-- The command's own row fits its operands. -/
def rowFits : Instr → Bool
  | .unknown _ code => !directiveCodes.contains code
  | .readTableSettings _ ws => !namesCollation ws
  | .readTableCollation _ ws => namesCollation ws
  | .writeTableOther _ ws => namesNoSettings ws
  | .openVolume _ _ | .writeLeaves _ _ | .writeFoldouts _ _ | .writeGatherings _ _ | .endLoading _ _ | .amendLeaf _ _
  | .skipLeaf _ _ | .discardVolume _ _ | .start _ _ | .pause _ _ | .resume _ _ | .step _ _ | .setMode _ _
  | .resolve _ _ | .move _ _ | .releaseVacuum _ _ | .clearLamp _ _ | .lock _ _ | .unlock _ _ | .setKey _ _
  | .readTally _ _ | .closeVolume _ _ | .retake _ _ | .readClosure _ _ | .writeLampCalibration _ _
  | .writeDutyCaps _ _ | .writePreviewDuties _ _ | .writeDoseLimits _ _ | .writeRecipes _ _ | .writeMotionLimits _ _
  | .writeSensorPolarities _ _ | .writeFrameGeometry _ _ | .writeTimers _ _ | .writeNoticeLevels _ _
  | .readStatus _ _ | .resetPart _ _ | .storeSettings _ _ | .recallSettings _ _ | .clearNotices _ _
  | .setNoticeEnables _ _ => true
  | .badFrame _ | .directiveDiscard | .directiveDroppedBeforeReset | .linkDown | .linkUp | .upstreamFrameSent
  | .linkReset | .powerOn | .resetLine | .coreSupply | .resetReleased | .startupRecallDone | .storeDone _ | .recallDone
  | .homeArrival _ | .apexArrival _ | .farPositionArrival _ _ | .vacuumGoodArrival | .vacuumGoodRelease
  | .platenDownArrival | .platenDownRelease | .platenUpArrival _ | .contactArrival _ _ | .leafEdge _ | .pedalPress _
  | .motionExpiry | .manualMotionExpiry | .gateRequest _ | .strobeEnd _ | .frameTimeout _ | .channelLockout _ _
  | .supplyLoss | .supplyGoodSample | .supplyRecovered | .darkDelayExpiry | .doseTick _ | .volumeClockSecond
  | .frameStart _ | .line _ _ | .frameEnd _ | .stall _ => true

/-- A well-formed command. -/
def wellFormed (i : Instr) : Bool := payloadFits i && rowFits i

end Sys2Proof
end

