-- ==== Sys2Proof/Certificates/Slice0/Obligations.lean ====
section
/-! DEFINITION. The statements about this model, in the order of OBLIGATIONS.json. A directive's reply is written
`giveReply tag code ⟨reply code, results, state⟩`: that state with the reply at the tail of the reply queue, the dark
delay restarted after OK and OK_CLAMPED, and the frame boundary that follows (ReplyRestartsTheDarkDelay says so).
`idleBoundary s` is the boundary at which an idle transmitter takes what has come to be offered, with which commands
end (log 10; TheArbiterChoosesTheNextFrame says what it takes); it is `s` while a frame is being sent or the link is
DOWN. A statement that ends in one such state says by it that everything else stands as it was. `react s` is what
follows an event at once in the channels and the sequencer (log 13); an event whose condition does not hold changes
nothing (log 9). -/

section Statements

open Sys2Proof Sys2Proof.Machine

/-! ### The machine -/

/-- One step runs the command at the front of the queue on the state with the queue's rest. The queue is the model's
(log 21). -/
def Obligations.StepRunsTheFrontCommand : Prop :=
  ∀ (c : Instr) (rest : List Instr) (s : State),
    step { s with pending := c :: rest } = exec c { s with pending := rest }

/-- With no command waiting, one millisecond passes (log 1); nothing runs in it while a reset is held. In one in which
nothing arrives and no timer ends (log 2): the motion limit, the manual motion's, the dark delay, the frame timeouts and
the stall timers lose 1; each scan moves on by ten slots of 100 µs, its new slot taking its owner's capped preview duty,
and a strobe has the scans completed taken off; the supply's recovery, the dose tick's period, the volume clock and a
store or recall gain 1 (03 R54 R55, 04 R86, 07 R140). Of a part that turns nothing, one sample of each input changes its
debounced level when it reads as the sample before it did (02 R25). -/
def Obligations.StepWithoutCommand : Prop :=
  ∀ s : State, s.pending = [] →
    step s = .next (tick s) ∧ (s.start = .held → step s = .next s) ∧
    let now (i : Input) : Bool := reading (polarityOf s i) (s.pins.inputs.get i)
    (s.start ≠ .held → (∀ i, s.seq.readings.get i = now i ∧ s.seq.levels.get i = now i) →
      (if s.pins.supplyGood then s.lamps.supply ≠ .low ∧ (s.lamps.supply = .recovering → s.lamps.recovery < 499)
        else s.lamps.supply = .low) →
      (s.seq.state.motion ≠ none → 2 ≤ s.seq.motionLeft) → (s.seq.manual ≠ none → 2 ≤ s.seq.manualLeft) →
      (∀ b, (s.chan b).state ≠ .gating ∧ (∀ n, (s.chan b).timeout = some n → 2 ≤ n) ∧
        (∀ f, (s.port b).frame = some f → 2 ≤ f.stallLeft) ∧
        ∀ z, s.lamps.strobe.get b = some z → (s.lamps.scanSlot.get b + 10) / 6 < z.scans) →
      s.dose.tickMs < 99 →
      let slots (b : Side) : Nat := s.lamps.scanSlot.get b + 10
      let chan (b : Side) : Channel := { s.chan b with timeout := (s.chan b).timeout.map (· - 1) }
      let port (b : Side) : Port := { s.port b with
        frame := (s.port b).frame.map fun f => { f with stallLeft := f.stallLeft - 1 } }
      let duty (b : Side) : Nat :=
        let c := calOf s (firstChannel b + slots b % 6)
        min c.preview c.cap
      let strobe (b : Side) : Option Strobe :=
        (s.lamps.strobe.get b).map fun z => { z with scans := z.scans - slots b / 6 }
      step s = .next (idleBoundary { s with
        seq := { s.seq with
          motionLeft := if s.seq.state.motion = none then s.seq.motionLeft else s.seq.motionLeft - 1
          manualLeft := if s.seq.manual = none then s.seq.manualLeft else s.seq.manualLeft - 1 }
        lamps := { s.lamps with
          strobe := ⟨strobe .left, strobe .right⟩
          scanSlot := ⟨slots .left % 6, slots .right % 6⟩
          slotDuty := ⟨duty .left, duty .right⟩
          darkLeft := s.lamps.darkLeft.map (· - 1)
          darkExpired := s.lamps.darkExpired || s.lamps.darkLeft == some 1
          recovery := if s.lamps.supply = .recovering then s.lamps.recovery + 1 else s.lamps.recovery }
        chans := ⟨chan .left, chan .right⟩
        ports := ⟨port .left, port .right⟩
        dose := { s.dose with tickMs := s.dose.tickMs + 1 }
        tally :=
          if s.tally.clockRuns = false then s.tally
          else if s.tally.clockMs < 999 then { s.tally with clockMs := s.tally.clockMs + 1 }
          else { s.tally with
            clock := if s.tally.clock < 2 ^ 32 - 1 then s.tally.clock + 1 else s.tally.clock, clockMs := 0 }
        store := if s.store.state = .idle then s.store else { s.store with elapsed := s.store.elapsed + 1 } })) ∧
    (s.start ≠ .held → s.col.volState ≠ .scanning → s.seq.state.motion = none → s.seq.manual = none →
      (∀ b, (s.chan b).state ≠ .gating ∧ (s.chan b).timeout = none ∧ (s.port b).frame = none ∧
        s.lamps.strobe.get b = none) →
      ∃ t, step s = .next t ∧ ∀ i, t.seq.readings.get i = now i ∧
        t.seq.levels.get i = if now i = s.seq.readings.get i then now i else s.seq.levels.get i)

/-- No command touches the queue, so what waits is taken in its order. -/
def Obligations.CommandsLeaveTheQueueAlone : Prop :=
  ∀ (c : Instr) (s : State), ∃ t, exec c s = .next t ∧ t.pending = s.pending

/-- 10 R178 to R180 at the release of a POWER_ON reset (log 3): the values the blocks' chapters give. The image, the
lines outside, the working settings until the recall ends and the step at which `reset` stands are the model's choices
(logs 3, 4, 5, 7), and so are the model's own fields (log 21). Every law that a later statement says each step keeps
holds there; that of the settings rests on logs 4 and 5. -/
def Obligations.ResetValues : Prop :=
  State.reset.col = Collation.blank ∧ State.reset.col.volState = .empty ∧ State.reset.col.serial = 0 ∧
  State.reset.col.volume = none ∧ State.reset.col.cursor = 0 ∧ State.reset.tally = .blank ∧
  State.reset.tally.retakes = [] ∧ State.reset.tally.clock = 0 ∧ State.reset.tally.clockRuns = false ∧
  State.reset.tally.closure = none ∧ State.reset.seq.state = .stopped ∧ State.reset.seq.p = 0 ∧
  State.reset.seq.dir = .forward ∧ State.reset.seq.mode = .auto ∧ State.reset.seq.stack = [] ∧
  State.reset.seq.stackBank = none ∧ State.reset.seq.retries = 0 ∧ State.reset.seq.edges = 0 ∧
  State.reset.seq.double = false ∧ State.reset.seq.kind = none ∧ State.reset.seq.lastFar = none ∧
  State.reset.seq.owed = none ∧ State.reset.seq.pendingPause = none ∧ State.reset.seq.pendingStep = none ∧
  State.reset.seq.foldMark = both false ∧ State.reset.seq.settledHere = both false ∧
  State.reset.seq.fault = none ∧ State.reset.seq.disturbed = false ∧ State.reset.seq.manual = none ∧
  (∀ i, State.reset.seq.levels.get i = false) ∧ State.reset.seq.outputs = .braked false ∧
  State.reset.lamps.supply = .low ∧ State.reset.lamps.strobe = both none ∧ State.reset.lamps.scanSlot = both 0 ∧
  State.reset.lamps.lockouts = List.replicate 12 none ∧ State.reset.lamps.cut = both false ∧
  State.reset.lamps.darkLeft = none ∧ State.reset.lamps.darkExpired = false ∧
  (∀ b, bankLevel State.reset b = .dark) ∧ captureAllowed State.reset = false ∧
  State.reset.dose.lock = .closed ∧ State.reset.dose.mismatches = 0 ∧ State.reset.dose.volDose = 0 ∧
  State.reset.chans = both .afterReset ∧ State.reset.ports = both .afterReset ∧ State.reset.link.up = false ∧
  State.reset.link.incoming = [] ∧ State.reset.link.replies = [] ∧ State.reset.link.errors = 0 ∧
  State.reset.link.discards = 0 ∧ State.reset.link.resetWaiting = false ∧
  State.reset.link.lastServed = .right ∧ State.reset.link.cause = .powerOn ∧
  State.reset.notices.sources = List.replicate 16 .clear ∧ State.reset.notices.master = false ∧
  lockLaw State.reset ∧ linkLaw State.reset.link ∧ idleLaw State.reset ∧ portsLaw State.reset ∧
  noticesLaw State.reset ∧ settingsLaw State.reset ∧ lampsLaw State.reset.lamps ∧ countersLaw State.reset ∧ retakesLaw State.reset ∧
  accountLaw State.reset ∧ limitsLaw State.reset ∧ quietLaw State.reset

/-! ### Directives at the decoder (08) -/

/-- What a reply does besides joining its queue: OK and OK_CLAMPED restart the dark delay and clear the expired mark,
and a delay of 0 stops the timer (03 R63). An idle transmitter of an UP link takes it at once (08 R166, log 10). -/
def Obligations.ReplyRestartsTheDarkDelay : Prop :=
  ∀ (tag : Byte) (code : Slot) (a : Answer),
    (a.code = .ok ∨ a.code = .okClamped →
      giveReply tag code a = idleBoundary { a.state with
        link := { a.state.link with replies := a.state.link.replies ++ [⟨tag, code, a.code, a.results⟩] }
        lamps := { a.state.lamps with
          darkExpired := false
          darkLeft := if a.state.settings.darkDelay = 0 then none else some (a.state.settings.darkDelay * 1000) } }) ∧
    (a.code ≠ .ok → a.code ≠ .okClamped →
      giveReply tag code a = idleBoundary { a.state with
        link := { a.state.link with replies := a.state.link.replies ++ [⟨tag, code, a.code, a.results⟩] } })

/-- 08 R158: every directive that is taken is answered at once, by one reply at the tail of the queue that carries its
tag and its code, whatever its payload; a code that names no directive is answered UNKNOWN and does nothing else. The
frame boundary of an idle transmitter comes after the reply has joined the queue (log 10). -/
def Obligations.EveryDirectiveTakenIsAnsweredOnce : Prop :=
  ∀ (c : Instr) (tag : Byte) (code : Slot) (ws : List Slot) (s : State),
    payloadOf c = some (tag, code :: ws) → takesDirective s = true →
    (∃ t reply results, exec c s = .next (idleBoundary t) ∧
      t.link.replies = s.link.replies ++ [⟨tag, code, reply, results⟩]) ∧
    (c = .unknown tag code → exec c s = .next (idleBoundary { s with
      link := { s.link with replies := s.link.replies ++ [⟨tag, code, .unknown, []⟩] } }))

/-- 08 R160: a directive answered with any code but OK and OK_CLAMPED has changed nothing but the reply queue; the
mismatching UNLOCK is the exception. The frame boundary of an idle transmitter comes after its reply (log 10). -/
def Obligations.RefusedDirectiveChangesNothing : Prop :=
  ∀ (c : Instr) (p : Byte × List Slot) (s : State), payloadOf c = some p → takesDirective s = true →
    ∃ t r, exec c s = .next (idleBoundary t) ∧ t.link.replies = s.link.replies ++ [r] ∧
      (r.code ≠ .ok → r.code ≠ .okClamped → r.code ≠ .keyMismatch →
        t = { s with link := { s.link with replies := s.link.replies ++ [r] } })

/-- 08 R159 and R165: a directive that finds 8 replies queued has no effect but one on the discard count, which stays
at 65,535; one that arrives while a link reset waits, or finds the link DOWN, has none at all. -/
def Obligations.DirectivesNotTaken : Prop :=
  ∀ (c : Instr) (p : Byte × List Slot) (s : State), payloadOf c = some p →
    (s.link.up = true → s.link.resetWaiting = false → 8 ≤ s.link.replies.length →
      exec c s = .next { s with link := { s.link with discards :=
        if s.link.discards < 65535 then s.link.discards + 1 else s.link.discards } }) ∧
    (s.link.resetWaiting = true ∨ s.link.up = false → exec c s = .next s)

/-- 01 R4 and 02 R27: the directives of the collation table and of the turn sequencer are refused with WRONG_STATE in
the volume states their tables do not list, whatever they carry. -/
def Obligations.VolumeStatesRefuseDirectives : Prop :=
  ∀ (tag : Byte) (ws : List Slot) (s : State), takesDirective s = true →
    let no (code : Slot) : Host.Outcome State Fault Refusal := .next (giveReply tag code ⟨.wrongState, [], s⟩)
    let v := s.col.volState
    (v ≠ .empty ∧ v ≠ .closed → exec (.openVolume tag ws) s = no 0x10) ∧
    (v ≠ .loading →
      exec (.writeLeaves tag ws) s = no 0x11 ∧ exec (.writeFoldouts tag ws) s = no 0x12 ∧
      exec (.writeGatherings tag ws) s = no 0x13 ∧ exec (.endLoading tag ws) s = no 0x14) ∧
    (v ≠ .paused → exec (.amendLeaf tag ws) s = no 0x15) ∧
    (v ≠ .ready ∧ v ≠ .paused → exec (.skipLeaf tag ws) s = no 0x16) ∧
    (v = .empty → exec (.discardVolume tag ws) s = no 0x17) ∧
    (v ≠ .ready → exec (.start tag ws) s = no 0x20) ∧
    (v ≠ .scanning ∧ v ≠ .paused →
      exec (.pause tag ws) s = no 0x21 ∧ exec (.step tag ws) s = no 0x23 ∧ exec (.setMode tag ws) s = no 0x24) ∧
    (v ≠ .paused → exec (.resume tag ws) s = no 0x22 ∧ exec (.resolve tag ws) s = no 0x25) ∧
    (v = .scanning → exec (.move tag ws) s = no 0x26 ∧ exec (.releaseVacuum tag ws) s = no 0x27)

/-! ### The collation (01) -/

/-- 01 R9 and R10 (with R1, R2 and R11). OPEN VOLUME is answered by the first test that fails: WRONG_STATE while a
volume is held, BUSY during a recall and not during a store, BAD_FORM without its 17 slots or a shelf mark of printable
characters, OUT_OF_RANGE for a field outside its values, DOSE_EXHAUSTED for a prior dose above the volume limit of its
class. A refusal changes nothing. Accepted, it ends whatever was held and makes the new volume, LOADING, with every
record unwritten; it closes the lock and answers with the new serial, 1 after 65,535. -/
def Obligations.OpenVolumeMakesANewVolume : Prop :=
  ∀ (tag : Byte) (ws : List Slot) (s : State), takesDirective s = true →
    let answers (a : Answer) : Prop := exec (.openVolume tag ws) s = .next (giveReply tag 0x10 a)
    let given (k : Nat) : Nat := (ws.getD k 0).toNat
    let start := if (ws.getD 13 0).getLsbD 0 then given 14 else 0
    let prior := if (ws.getD 13 0).getLsbD 1 then some (given 15 * 2 ^ 32 + given 16) else none
    let limit := (s.settings.limits.getD (given 12) ⟨0, 0⟩).volume
    let inRange : Prop := 1 ≤ given 9 ∧ given 9 ≤ 99 ∧ given 10 ≤ 1 ∧ 1 ≤ given 11 ∧ given 11 ≤ 2048 ∧ given 12 ≤ 3 ∧
      start < given 11 ∧ prior.getD 0 < 2 ^ 48
    (s.col.volState ≠ .empty ∧ s.col.volState ≠ .closed → answers ⟨.wrongState, [], s⟩) ∧
    (s.col.volState = .empty ∨ s.col.volState = .closed →
      (s.store.state = .recalling → answers ⟨.busy, [], s⟩) ∧
      (s.store.state ≠ .recalling →
        (ws.length ≠ 17 ∨ readText 32 (ws.take 9) = none ∨ readText 32 (ws.take 9) = some [] →
          answers ⟨.badForm, [], s⟩) ∧
        (∀ mark, ws.length = 17 → readText 32 (ws.take 9) = some mark → mark ≠ [] →
          (¬inRange → answers ⟨.outOfRange, [], s⟩) ∧
          (inRange → limit < prior.getD 0 → answers ⟨.doseExhausted, [], s⟩) ∧
          (inRange → prior.getD 0 ≤ limit →
            let serial := if 65535 ≤ s.col.serial then 1 else s.col.serial + 1
            answers ⟨.ok, [slot serial], { s with
              col := {
                volState := .loading
                serial := serial
                volume := some {
                  shelfMark := mark, part := given 9, binding := if given 10 = 0 then .ltr else .rtl
                  leafCount := given 11, doseClass := given 12, startLeaf := start, priorDose := prior }
                cursor := 0
                leaves := List.replicate (given 11) .unwritten
                foldouts := List.replicate 64 none
                gatherings := List.replicate 256 none }
              tally := { sideCounts := .zero, panelCounts := .zero, retakes := [], clock := 0, clockRuns := false,
                         clockMs := 0, closure := none }
              dose := { s.dose with volDose := 0, lock := .closed } }⟩))))

/-- 01 R12 to R14: an accepted WRITE LEAVES replaces the records from its first index (the cursor with CONTINUE) and
moves the cursor to the index after the last; WRITE FOLDOUTS replaces its entry's panel list; WRITE GATHERINGS replaces
the entries from its first index. Each answers with its figure and writes nothing else. -/
def Obligations.LoadingDirectivesWriteTheirTables : Prop :=
  ∀ (tag : Byte) (ws : List Slot) (s : State), takesDirective s = true → s.col.volState = .loading →
    (∀ (w : Slot) (rs : List LeafRecord) (first : Nat), readList 1 32 6 readLeafRecord ws = some (w, rs) →
      first = (if w = 0xFFFFFFFF#32 then s.col.cursor else w.toNat) →
      first + rs.length ≤ leafCount s → (∀ r ∈ rs, leafInRange r = true) →
      exec (.writeLeaves tag ws) s = .next (giveReply tag 0x11 ⟨.ok, [slot (first + rs.length)], { s with
        col := { s.col with
          leaves := s.col.leaves.take first ++ rs ++ s.col.leaves.drop (first + rs.length)
          cursor := first + rs.length } }⟩)) ∧
    (∀ (w : Slot) (ps : List PanelRecord), readList 2 6 3 readPanelRecord ws = some (w, ps) → w.toNat ≤ 63 →
      (∀ p ∈ ps, panelInRange p = true) → panelsLoaded (s.col.foldouts.set w.toNat (some ps)) ≤ 256 →
      exec (.writeFoldouts tag ws) s = .next (giveReply tag 0x12
        ⟨.ok, [slot (panelsLoaded (s.col.foldouts.set w.toNat (some ps)))],
          { s with col := { s.col with foldouts := s.col.foldouts.set w.toNat (some ps) } }⟩)) ∧
    (∀ (w : Slot) (gs : List GatheringEntry), readList 1 32 4 readGathering ws = some (w, gs) →
      w.toNat + gs.length ≤ 256 → (∀ g ∈ gs, gatheringInRange g = true) →
      exec (.writeGatherings tag ws) s = .next (giveReply tag 0x13
        ⟨.ok, [slot (gatheringCount (writeFrom w.toNat (gs.map some) s.col.gatherings))],
          { s with col := { s.col with gatherings := writeFrom w.toNat (gs.map some) s.col.gatherings } }⟩))

/-- 01 R15 and R16 (with R5, R8): END LOADING makes the volume READY when the eight checks pass: every leaf written; the
gatherings 0 to G-1 written, with leaf counts that sum to N; every reference to a written fold-out; no fold-out on an
ABSENT leaf; every written fold-out named once and at a depth of 1 to 4; some leaf present; and the start leaf present.
Then every side is ABSENT, SUPPRESSED or PENDING by its leaf's flags, every panel PENDING, every dose and take count 0
and every stamp absent, the counters those of these states, the volume dose the prior dose, and each leaf belongs to the
gathering whose leaves, counted in order, take it in; every other loaded field stands. It answers with the PENDING sides
and panels. A failing check is answered COLLATION_BAD with its number, the first that fails, and changes nothing. -/
def Obligations.EndLoadingInitialisesTheTally : Prop :=
  ∀ (tag : Byte) (s : State), takesDirective s = true → s.col.volState = .loading → countersLaw s →
    let g := gatheringCount s.col.gatherings
    let size (i : Nat) : Nat := ((s.col.gatherings.getD i none).map (·.leafCount)).getD 0
    let refs : List Nat := s.col.leaves.filterMap fun l => l.foldout.map (·.2)
    let nested (f : Nat) : List Nat := ((panelsOf s f).getD []).filterMap (·.nested)
    let written (f : Nat) : Prop := ∃ ps, panelsOf s f = some ps
    let check : Nat → Prop
      | 1 => ∀ l ∈ s.col.leaves, l.written = true
      | 2 => 1 ≤ g ∧ (∀ i, i < g → s.col.gatherings.getD i none ≠ none) ∧ ((List.range g).map size).sum = leafCount s
      | 3 => (∀ f ∈ refs, written f) ∧ ∀ f, f < 64 → ∀ h ∈ nested f, written h
      | 4 => ∀ l ∈ s.col.leaves, l.absent = true → l.foldout = none
      | 5 => ∀ f, f < 64 → written f → refs.count f + ((List.range 64).map fun h => (nested h).count f).sum = 1
      | 6 => ∀ f, f < 64 → written f → ∃ a ∈ refs, f = a ∨ f ∈ nested a ∨ (∃ b ∈ nested a, f ∈ nested b) ∨
          ∃ b ∈ nested a, ∃ c ∈ nested b, f ∈ nested c
      | 7 => ∃ l ∈ s.col.leaves, l.absent = false
      | 8 => ∀ l, s.col.leaves[(s.col.volume.map (·.startLeaf)).getD 0]? = some l → l.absent = false
      | _ => True
    (∀ k, 1 ≤ k → k ≤ 8 → (∀ j, 1 ≤ j → j < k → check j) → ¬check k → ∃ item,
      exec (.endLoading tag []) s = .next (giveReply tag 0x14 ⟨.collationBad, [slot k, slot item], s⟩) ∧
      (k = 1 → ∃ l, s.col.leaves[item]? = some l ∧ l.written = false ∧
        ∀ j l', j < item → s.col.leaves[j]? = some l' → l'.written = true) ∧
      (k = 4 → ∃ l, s.col.leaves[item]? = some l ∧ l.absent = true ∧ l.foldout ≠ none ∧
        ∀ j l', j < item → s.col.leaves[j]? = some l' → l'.absent = true → l'.foldout = none) ∧
      (k = 7 → item = 0) ∧ (k = 8 → item = (s.col.volume.map (·.startLeaf)).getD 0)) ∧
    ((∀ k, check k) → ∃ t,
      exec (.endLoading tag []) s = .next (giveReply tag 0x14
        ⟨.ok, [slot t.tally.sideCounts.pending, slot t.tally.panelCounts.pending], t⟩) ∧
      t = { s with
        col := { s.col with volState := .ready, leaves := t.col.leaves, foldouts := t.col.foldouts }
        tally := { s.tally with sideCounts := t.tally.sideCounts, panelCounts := t.tally.panelCounts }
        dose := { s.dose with volDose := priorDose s } } ∧
      t.tally.sideCounts = countStates (sideStates t) ∧ t.tally.panelCounts = countStates (panelStates t) ∧
      t.col.leaves.length = s.col.leaves.length ∧
      (∀ i l, s.col.leaves[i]? = some l → ∃ k, k < g ∧
        ((List.range k).map size).sum ≤ i ∧ i < ((List.range (k + 1)).map size).sum ∧
        t.col.leaves[i]? = some { l with
          gathering := some k
          recto := .blank (if l.absent then .absent else if l.noRecto then .suppressed else .pending)
          verso := .blank (if l.absent then .absent else if l.noVerso then .suppressed else .pending) }) ∧
      t.col.foldouts = s.col.foldouts.map fun e => e.map fun ps => ps.map ({ · with tally := .blank .pending }))

/-- 01 R18: an accepted AMEND LEAF writes the changes it carries into the record of the leaf it names, and nothing
else. The presence bits of the payload choose the changes. -/
def Obligations.AmendLeafWritesItsChanges : Prop :=
  ∀ (tag : Byte) (ws : List Slot) (s : State) (i : Nat), takesDirective s = true → s.col.volState = .paused →
    ws.length = 11 →
    ((ws.getD 5 0).getLsbD 0 || (ws.getD 5 0).getLsbD 1 || (ws.getD 5 0).getLsbD 2) = true →
    ((ws.getD 5 0).getLsbD 0 = true → (readLabel ((ws.drop 6).take 3)).isSome) →
    findLeaf s (ws.take 5) = .ok i →
    ((ws.getD 5 0).getLsbD 1 = true → (ws.getD 9 0).toNat ≤ 15) →
    ((ws.getD 5 0).getLsbD 2 = true → (ws.getD 10 0).toNat ≤ 1) →
    exec (.amendLeaf tag ws) s = .next (giveReply tag 0x15 ⟨.ok, [], { s with
      col := { s.col with leaves := s.col.leaves.modify i fun l => { l with
        label := if (ws.getD 5 0).getLsbD 0 then (readLabel ((ws.drop 6).take 3)).getD [] else l.label
        cls := if (ws.getD 5 0).getLsbD 1 then (ws.getD 9 0).toNat else l.cls
        handTurn := if (ws.getD 5 0).getLsbD 2 then decide ((ws.getD 10 0).toNat = 1) else l.handTurn } } }⟩)

/-- 01 R19: an accepted SKIP LEAF makes SKIPPED every PENDING target of the leaf, its panels at every depth included,
and no other; it answers with their number. Doses stand, and the retake list loses the sides skipped. -/
def Obligations.SkipLeafSkipsItsPendingTargets : Prop :=
  ∀ (tag : Byte) (ws : List Slot) (s : State) (i : Nat), takesDirective s = true →
    s.col.volState = .ready ∨ s.col.volState = .paused → ws.length = 5 → findLeaf s ws = .ok i →
    ∃ t, exec (.skipLeaf tag ws) s = .next (giveReply tag 0x16
        ⟨.ok, [slot ((targetsOfLeaf s i).countP (isPending s))], t⟩) ∧
      t = { s with
        col := { s.col with leaves := t.col.leaves, foldouts := t.col.foldouts }
        tally := { s.tally with
          sideCounts := t.tally.sideCounts, panelCounts := t.tally.panelCounts, retakes := t.tally.retakes }
        seq := { s.seq with settledHere := t.seq.settledHere } } ∧
      (∀ x, fieldsOf t x = if x ∈ targetsOfLeaf s i ∧ isPending s x = true
        then (fieldsOf s x).map ({ · with state := .skipped }) else fieldsOf s x) ∧
      (∀ e : Nat × Face, e ∈ t.tally.retakes ↔
        e ∈ s.tally.retakes ∧ ¬(.side e.1 e.2 ∈ targetsOfLeaf s i ∧ isPending s (.side e.1 e.2) = true))

/-- 01 R20 and R21: an accepted DISCARD VOLUME ends the volume: the collation and the tally are lost but for the
serial, the volume dose is 0 and the lock stands; both channels go IDLE, both ports keep their queues, and of a
scanning or paused volume the sequencer is STOPPED with every drive braked, the vacuum valve as it was and both preview
cuts cleared (03 R62). -/
def Obligations.DiscardVolumeEndsTheVolume : Prop :=
  ∀ (tag : Byte) (s : State), takesDirective s = true → s.col.volState ≠ .empty →
    ∃ t, exec (.discardVolume tag []) s = .next (giveReply tag 0x17 ⟨.ok, [], t⟩) ∧
      t = { s with
        col := { Collation.blank with serial := s.col.serial }, tally := .blank, dose := { s.dose with volDose := 0 },
        seq := t.seq, lamps := t.lamps, chans := both .afterReset, ports := t.ports } ∧
      t.seq.outputs.vacuum = s.seq.outputs.vacuum ∧ t.seq.manual = none ∧ t.seq.fault = none ∧
      t.seq.disturbed = false ∧
      (s.col.volState = .scanning ∨ s.col.volState = .paused →
        t.seq.state = .stopped ∧ t.seq.stack = [] ∧ t.seq.pendingPause = none ∧ t.seq.pendingStep = none ∧
        t.seq.outputs = { s.seq.outputs with arm := .brake, puff := false, platen := .off, lifts := both .off } ∧
        t.lamps.cut = both false) ∧
      t.lamps = { s.lamps with strobe := t.lamps.strobe, cut := t.lamps.cut } ∧
      ∀ b, (t.port b).queue = (s.port b).queue ∧ (t.port b).waiting = none ∧ (t.port b).frame = (s.port b).frame ∧
        ((t.port b).armed = none ∨ (t.port b).armed.map (·.status) = some .abandoned) ∧
        ((s.chan b).state = .firing → t.lamps.strobe.get b = none)

/-! ### The directives of the turn sequencer (02) -/

/-- 02 R45: an accepted START puts the sequencer at the start leaf with nothing left over from an earlier scan, makes
the volume SCANNING, starts the volume clock and enters PLATEN_UP of a RESTORE, or HOME where the platen is up already
and the arm is not home. A manual motion in flight refuses it with BUSY. -/
def Obligations.StartBeginsTheScan : Prop :=
  ∀ (tag : Byte) (ws : List Slot) (s : State) (m : Mode) (d : Option Dir), takesDirective s = true →
    s.col.volState = .ready → ws.length = 3 → readModeDir ws = some (m, d) →
    (s.seq.manual ≠ none → exec (.start tag ws) s = .next (giveReply tag 0x20 ⟨.busy, [], s⟩)) ∧
    (s.seq.manual = none → s.seq.state = .stopped →
      let started := { s with
        col := { s.col with volState := .scanning }
        tally := { s.tally with clockRuns := true, clockMs := 0 } }
      let seq := { s.seq with
        kind := some .restore, p := (s.col.volume.map VolumeRecord.startLeaf).getD 0, dir := d.getD .forward, mode := m,
        stack := [], stackBank := none, pendingPause := none, pendingStep := none, foldMark := both false,
        settledHere := both false, disturbed := false }
      (s.seq.levels.platenUp = false →
        exec (.start tag ws) s = .next (giveReply tag 0x20 ⟨.ok, [], reseat { seq with
          state := .platenUp
          motionLeft := s.settings.motionLimits.getD 2 0
          outputs := { s.seq.outputs with platen := .up } } started⟩)) ∧
      (s.seq.levels.platenUp = true → s.seq.levels.home = false →
        exec (.start tag ws) s = .next (giveReply tag 0x20 ⟨.ok, [], reseat { seq with
          state := .home
          motionLeft := s.settings.motionLimits.getD 6 0
          outputs := { s.seq.outputs with platen := .off, arm := towardSpine s } } started⟩)))

/-- 02 R46 and R47: PAUSE while SCANNING makes a pause pending with the cause PAUSE. At a safe point, a rest state with
both channels at rest, it is taken at once and PAUSED raised; in HELD with nothing PENDING in view the decision of the
settled opening has then been made (R37). In a motion it waits, and in HELD and PANEL_HELD while a channel works, whether
one or both; so it does in HELD with the hold withdrawn, where the fault of R36 takes its place. A second PAUSE, and one
in PAUSED, change nothing. Each is answered OK. A channel at rest that can take up a target (05 R96) has done so before,
and is left out here. -/
def Obligations.PauseIsTakenAtASafePoint : Prop :=
  ∀ (tag : Byte) (s : State), takesDirective s = true →
    let answers (t : State) : Prop := exec (.pause tag []) s = .next (giveReply tag 0x21 ⟨.ok, [], t⟩)
    (s.col.volState = .paused ∨ (s.col.volState = .scanning ∧ s.seq.pendingPause ≠ none) → answers s) ∧
    (s.col.volState = .scanning → s.seq.pendingPause = none →
      let offered : Prop := s.seq.hold = true ∧ captureAllowed s = true ∧ ∃ b, (s.chan b).atRest = true ∧
        (((s.chan b).state = .idle ∧ (s.chan b).target ≠ none) ∨ ∃ x, inView s b = some x ∧ isPending s x = true)
      let safe : Prop := bothAtRest s = true ∧
        (s.seq.state = .handWait ∨ s.seq.state = .foldWait ∨ (s.seq.state = .panelHeld ∧ ¬offered) ∨
          (s.seq.state = .held ∧ s.seq.hold = true ∧ ¬offered ∧ (noneInViewPending s = true → s.seq.waiting = true)))
      (s.seq.state.isMotion = true → answers { s with seq := { s.seq with pendingPause := some .pause } }) ∧
      (s.seq.state = .held → s.seq.hold = true → bothAtRest s = false → ¬offered →
        answers { s with seq := { s.seq with pendingPause := some .pause, waiting := false } }) ∧
      (s.seq.state = .held → s.seq.hold = false → bothAtRest s = false →
        answers { s with seq := { s.seq with pendingPause := some .pause } }) ∧
      (∀ b, s.seq.state = .panelHeld → s.seq.stackBank = some b → (s.chan b).atRest = false → ¬offered →
        answers { s with seq := { s.seq with pendingPause := some .pause } }) ∧
      (safe → answers (raise .paused [0] { s with
        col := { s.col with volState := .paused }
        seq := { s.seq with hold := false, waiting := false } })))

/-- 02 R48: RESUME from a rest state makes the volume SCANNING. From HAND_WAIT, and from an undisturbed FOLD_WAIT, the
sequencer stands; from an undisturbed HELD or PANEL_HELD it grants the hold, with what follows at once (of PANEL_HELD
ThePedalAndTheHeldPanel says it); from a disturbed HELD it ends the visits and presents the opening again; from a
disturbed FOLD_WAIT or PANEL_HELD it raises the platen again, without the lifts, the panel's entry in PRESENT_NEXT. A
manual motion refuses it with BUSY, and FAULT without a resolution with WRONG_STATE. From an undisturbed HELD with
nothing PENDING in view the opening is settled at once: OPENING_DONE is raised, and of R37's cases the first that applies
is taken. A fold-out in view that R42 has opened (bank L before bank R) is re-offered, pushed and raised; with none of
its panels PENDING then it is passed over, and bank R is not tested any more after bank L (log 16). A pending step is
carried out, or cleared where its turn is not possible (R39), the direction then left as it was (log 33); AUTO and HAND
turn toward a PENDING side ahead, else turn round for one behind, and else raise VOLUME_END and pause (R38); STEP waits.
A turn is by hand for a HAND_TURN leaf and in HAND mode (R40), ends the visits and raises the platen. -/
def Obligations.ResumeContinuesFromItsRestState : Prop :=
  ∀ (tag : Byte) (s : State), takesDirective s = true → s.col.volState = .paused →
    (s.seq.manual ≠ none → exec (.resume tag []) s = .next (giveReply tag 0x22 ⟨.busy, [], s⟩)) ∧
    (s.seq.manual = none → s.seq.state = .fault → (s.seq.fault.map (·.resolution)).getD .none = .none →
      exec (.resume tag []) s = .next (giveReply tag 0x22 ⟨.wrongState, [], s⟩)) ∧
    (s.seq.manual = none → s.seq.fault = none → s.seq.pendingPause = none →
      let col := { s.col with volState := .scanning }
      (s.seq.state = .handWait ∨ (s.seq.state = .foldWait ∧ s.seq.disturbed = false) →
        exec (.resume tag []) s = .next (giveReply tag 0x22
          ⟨.ok, [], { s with col := col, seq := { s.seq with disturbed := false } }⟩)) ∧
      (s.seq.state = .held → s.seq.disturbed = false → captureAllowed s = false → noneInViewPending s = false →
        exec (.resume tag []) s = .next (giveReply tag 0x22 ⟨.ok, [], { s with
          col := col, seq := { s.seq with hold := true, holdGiven := true, waiting := false } }⟩)) ∧
      (s.seq.state = .held → s.seq.disturbed = true → bothAtRest s = true →
        (s.seq.levels.leftContact && s.seq.levels.rightContact) = false →
        exec (.resume tag []) s = .next (giveReply tag 0x22 ⟨.ok, [], { s with
          col := col
          chans := both .afterReset
          seq := { s.seq with
            state := .present, kind := some .restore, disturbed := false, hold := false, holdGiven := false,
            waiting := false, motionLeft := s.settings.motionLimits.getD 0 0
            outputs := { s.seq.outputs with
              lifts := ⟨if s.seq.levels.leftContact then .off else .raise,
                        if s.seq.levels.rightContact then .off else .raise⟩ } } }⟩)) ∧
      (s.seq.state = .foldWait → s.seq.disturbed = true → s.seq.levels.platenUp = false →
        exec (.resume tag []) s = .next (giveReply tag 0x22 ⟨.ok, [], reseat { s.seq with
          state := .platenUp, kind := some .foldRaise, disturbed := false
          motionLeft := s.settings.motionLimits.getD 2 0
          outputs := { s.seq.outputs with platen := .up } } { s with col := col }⟩)) ∧
      (s.seq.state = .panelHeld → s.seq.disturbed = false →
        let granted : State := { s with
          col := col, seq := { s.seq with hold := true, holdGiven := true, waiting := false } }
        exec (.resume tag []) s = .next (giveReply tag 0x22 ⟨.ok, [], react granted⟩) ∧
        (captureAllowed s = false → react granted = granted)) ∧
      (∀ e rest, s.seq.state = .panelHeld → s.seq.disturbed = true → s.seq.stack = e :: rest → bothAtRest s = true →
        s.seq.levels.platenUp = false →
        exec (.resume tag []) s = .next (giveReply tag 0x22 ⟨.ok, [], reseat { s.seq with
          state := .platenUp, kind := some .foldRaise, disturbed := false, hold := false, holdGiven := false
          waiting := false, stack := { e with phase := .presentNext } :: rest
          motionLeft := s.settings.motionLimits.getD 2 0
          outputs := { s.seq.outputs with platen := .up } } { s with col := col, chans := both .afterReset }⟩)) ∧
      (s.seq.state = .held → s.seq.disturbed = false → (∀ b x, inView s b = some x → isPending s x = false) →
        (∀ b, (s.chan b).state = .done ∨ ((s.chan b).state = .idle ∧ (s.chan b).target = none)) →
        s.seq.levels.platenUp = false →
        let answers (t : State) : Prop := exec (.resume tag []) s = .next (giveReply tag 0x22 ⟨.ok, [], t⟩)
        let seq := { s.seq with hold := true, holdGiven := true, waiting := true }
        let w : State := raise .openingDone [slot s.seq.p] { s with col := col, seq := seq }
        let raised (q : Sequencer) : Sequencer := { q with
          state := .platenUp, hold := false, holdGiven := false, waiting := false
          motionLeft := s.settings.motionLimits.getD 2 0, outputs := { q.outputs with platen := .up } }
        let turning (d : Dir) (leaf : Nat) : State := { w with
          chans := both .afterReset
          seq := raised { seq with
            kind := some (if (leafAt s leaf).handTurn = true ∨ s.seq.mode = .hand then .handRaise else .machineTurn)
            turn := some ⟨d, leaf⟩, dir := d, pendingStep := none, retries := 0
            outputs := { s.seq.outputs with lifts := both .lower } } }
        let opens (b : Side) (g : Nat) : Prop :=
          ∃ leaf f, inView s b = some (.side leaf f) ∧ (leafAt s leaf).foldout = some (f, g) ∧
            s.seq.foldMark.get b = false ∧
            ((∃ x ∈ panelsUnder s (coveredFoldouts s g), stateOf s x = some .pending) ∨ s.seq.settledHere.get b = true)
        let ahead (d : Dir) : Prop := ∃ leaf f, stateOf s (.side leaf f) = some .pending ∧
          match d with
          | .forward => s.seq.p < openingOf s leaf f
          | .backward => openingOf s leaf f < s.seq.p
        (∀ b g, opens b g → (b = .right → ∀ h, ¬opens .left h) →
          let xs := panelsUnder s (coveredFoldouts s g)
          ((∃ x ∈ xs, stateOf s x = some .pending ∨ stateOf s x = some .rejected ∨ stateOf s x = some .withheld) →
            ∃ t, answers t ∧
              t = { w with
                col := { col with foldouts := t.col.foldouts }
                tally := { s.tally with panelCounts := t.tally.panelCounts }
                chans := both .afterReset
                lamps := { s.lamps with cut := s.lamps.cut.set b false }
                seq := raised { seq with
                  kind := some .foldRaise, foldMark := s.seq.foldMark.set b true, stackBank := some b
                  stack := [⟨g, 1, .presentNext⟩] } } ∧
              ∀ x, fieldsOf t x =
                if x ∈ xs ∧ (stateOf s x = some .rejected ∨ stateOf s x = some .withheld)
                then (fieldsOf s x).map ({ · with state := .pending }) else fieldsOf s x) ∧
          ((∀ x ∈ xs, stateOf s x ≠ some .pending ∧ stateOf s x ≠ some .rejected ∧ stateOf s x ≠ some .withheld) →
            s.seq.mode = .step → s.seq.pendingStep = none →
            answers { w with seq := { seq with foldMark := s.seq.foldMark.set b true } })) ∧
        ((∀ b g, ¬opens b g) →
          (∀ d, s.seq.pendingStep = some d →
            (turnedLeaf s d = none → answers { w with seq := { seq with pendingStep := none } }) ∧
            ∀ leaf, turnedLeaf s d = some leaf → answers (turning d leaf)) ∧
          (s.seq.pendingStep = none → s.seq.mode = .step → answers w) ∧
          (s.seq.pendingStep = none → s.seq.mode ≠ .step →
            (∀ leaf, ahead s.seq.dir → turnedLeaf s s.seq.dir = some leaf → answers (turning s.seq.dir leaf)) ∧
            (∀ leaf, ¬ahead s.seq.dir → ahead s.seq.dir.opposite → turnedLeaf s s.seq.dir.opposite = some leaf →
              answers (turning s.seq.dir.opposite leaf)) ∧
            (¬ahead s.seq.dir → ¬ahead s.seq.dir.opposite →
              answers (raise .paused [3] (raise .volumeEnd [slot s.seq.p] { w with
                col := { col with volState := .paused }
                seq := { seq with hold := false, waiting := false } })))))))

/-- 02 R50: RESUME in FAULT carries out the recorded resolution. HAND and GIVE BACK lead to HAND_WAIT with the owed
turn, its notice naming the turned leaf, or p when no turn is owed (09 R168, log 17); HAND leads to FOLD_WAIT from a
fold-out's PLATEN_UP, without a notice (log 41). RETRY enters PICK with the retry count 0 after a mispick, PLATEN_DOWN
of a RESTORE after a slip, and after a timeout the failed motion again with a fresh time limit: CARRY with its edge
count kept (log 34), PLATEN_UP with the kind it had. ADVANCE skips the two hidden faces, turns the vacuum off, moves p
past both leaves and enters HOME. -/
def Obligations.ResumeCarriesOutTheResolution : Prop :=
  ∀ (tag : Byte) (s : State) (r : FaultRecord), takesDirective s = true → s.col.volState = .paused →
    s.seq.manual = none → s.seq.state = .fault → s.seq.fault = some r → s.seq.pendingPause = none →
    let o := s.seq.outputs
    let seq := { s.seq with fault := none, disturbed := false }
    let scanning := { s with col := { s.col with volState := .scanning }, seq := seq }
    let answers (t : State) : Prop := exec (.resume tag []) s = .next (giveReply tag 0x22 ⟨.ok, [], t⟩)
    ((r.resolution = .hand ∧ ¬(r.motion = .platenUp ∧ s.seq.kind = some .foldRaise)) ∨ r.resolution = .giveBack →
      answers (raise .handWait [slot (if r.owed.isSome then r.turned.getD s.seq.p else s.seq.p), slot (dirOptNum r.owed)]
        { scanning with seq := { seq with
          state := .handWait, owed := r.owed, kind := none, turn := none, motionLeft := 0 } })) ∧
    (r.resolution = .hand → r.motion = .platenUp → s.seq.kind = some .foldRaise →
      answers (reseat { seq with state := .foldWait, kind := none, turn := none, motionLeft := 0 } scanning)) ∧
    (r.resolution = .retry → r.cause = .mispick → s.seq.levels.get (farInput (sourceSide s)) = false →
      s.seq.levels.vacuumGood = false →
      answers { scanning with seq := { seq with
        state := .pick, retries := 0, motionLeft := s.settings.motionLimits.getD 3 0
        outputs := { o with arm := armToward (sourceSide s) } } }) ∧
    (r.resolution = .retry → r.cause = .slipped ∨ (r.cause = .timeout ∧ r.motion = .platenDown) →
      s.seq.levels.platenDown = false →
      answers { scanning with seq := { seq with
        state := .platenDown, kind := if r.cause = .slipped then some .restore else s.seq.kind
        motionLeft := s.settings.motionLimits.getD 1 0
        outputs := { o with platen := .down } } }) ∧
    (r.resolution = .retry → r.cause = .timeout →
      let again (st : SeqState) (limit : Nat) (o : Outputs) : State := { scanning with seq := { seq with
        state := st, motionLeft := s.settings.motionLimits.getD limit 0, outputs := o } }
      (r.motion = .present → (s.seq.levels.leftContact && s.seq.levels.rightContact) = false →
        answers (again .present 0 { o with lifts := ⟨if s.seq.levels.leftContact then .off else .raise,
          if s.seq.levels.rightContact then .off else .raise⟩ })) ∧
      (∀ k, r.motion = .platenUp → s.seq.kind = some k → s.seq.levels.platenUp = false →
        let t := again .platenUp 2 { o with platen := .up }
        answers (if k = .machineTurn ∨ k = .handRaise
          then { t with seq := { t.seq with
            retries := 0, outputs := { o with platen := .up, lifts := both .lower } } }
          else t)) ∧
      (r.motion = .carry → s.seq.levels.get (farInput (destSide s)) = false →
        answers (again .carry 4 { o with puff := false, arm := armToward (destSide s) })) ∧
      (r.motion = .lay → s.seq.levels.vacuumGood = true →
        answers (again .lay 5 { o with arm := .brake, vacuum := false })) ∧
      (r.motion = .home → s.seq.levels.home = false → answers (again .home 6 { o with arm := towardSpine s }))) ∧
    (∀ a u d, r.resolution = .advance → r.turned = some a → r.owed = some d → leafBeyond s r = some u →
      s.seq.levels.home = false →
      answers (reseat { seq with
          state := .home, kind := some .restore, p := if d = .forward then presentAfter s u else u
          foldMark := both false, settledHere := both false, motionLeft := s.settings.motionLimits.getD 6 0
          outputs := { o with vacuum := false, arm := towardSpine s } }
        (settleAll [.side (min a u) .verso, .side (max a u) .recto] .skipped scanning)))

/-- 02 R39, R49 and R50. STEP, in SCANNING as in PAUSED, is refused unless the mode is STEP, the turn is possible and no
step is held, and sets the pending step. SET MODE replaces the mode and the direction it carries, and clears the pending
step as it leaves STEP. While SCANNING, where the sequencer waits in HELD on a settled opening, the step is carried out
at once, and a SET MODE that leaves STEP makes the new mode's decision at once (R38); elsewhere each is only set, with
what follows at once (`react`), which is nothing in a motion, and nothing else in HELD while a channel works. RESOLVE
records a resolution that the fault's cause allows, ADVANCE only with a present leaf beyond the turned one. -/
def Obligations.StepModeAndResolution : Prop :=
  ∀ (tag : Byte) (w : Slot) (s : State), takesDirective s = true →
    let waits : Prop := s.seq.state = .held ∧ s.seq.hold = true ∧ bothAtRest s = true ∧ noneInViewPending s = true ∧
      s.seq.waiting = true
    let works : Prop := s.seq.state = .held ∧ s.seq.hold = true ∧ ∃ b, (s.chan b).atRest = false ∧
      ((s.chan b.other).atRest = true → captureAllowed s = false ∨ ((s.chan b.other).state = .done ∧
        ∀ x, inView s b.other = some x → isPending s x = false))
    let turning (m : Mode) (d : Dir) (leaf : Nat) : State := { s with
      chans := both .afterReset
      seq := { s.seq with
        state := .platenUp, mode := m, dir := d, pendingStep := none, retries := 0
        kind := some (if (leafAt s leaf).handTurn = true ∨ m = .hand then .handRaise else .machineTurn)
        turn := some ⟨d, leaf⟩, hold := false, holdGiven := false, waiting := false
        motionLeft := s.settings.motionLimits.getD 2 0
        outputs := { s.seq.outputs with platen := .up, lifts := both .lower } } }
    let ahead (d : Dir) : Prop := ∃ leaf f, stateOf s (.side leaf f) = some .pending ∧
      match d with
      | .forward => s.seq.p < openingOf s leaf f
      | .backward => openingOf s leaf f < s.seq.p
    (∀ d, dirOf w = some d → s.col.volState = .scanning ∨ s.col.volState = .paused →
      let answers (a : Answer) : Prop := exec (.step tag [w]) s = .next (giveReply tag 0x23 a)
      let set := { s with seq := { s.seq with pendingStep := some d } }
      (s.seq.mode ≠ .step → answers ⟨.wrongState, [], s⟩) ∧
      (s.seq.mode = .step → turnedLeaf s d = none → answers ⟨.outOfRange, [], s⟩) ∧
      (s.seq.mode = .step → turnedLeaf s d ≠ none → s.seq.pendingStep ≠ none → answers ⟨.busy, [], s⟩) ∧
      (∀ leaf, s.seq.mode = .step → turnedLeaf s d = some leaf → s.seq.pendingStep = none →
        (s.col.volState = .paused ∨ s.seq.state.isRest = false → answers ⟨.ok, [], set⟩) ∧
        (s.col.volState = .scanning → ¬waits → answers ⟨.ok, [], react set⟩ ∧
          (works → react set = { set with seq := { set.seq with waiting := false } })) ∧
        (s.col.volState = .scanning → waits → s.seq.levels.platenUp = false →
          answers ⟨.ok, [], turning .step d leaf⟩))) ∧
    (∀ ws m d, ws.length = 3 → readModeDir ws = some (m, d) → s.col.volState = .scanning ∨ s.col.volState = .paused →
      let answers (t : State) : Prop := exec (.setMode tag ws) s = .next (giveReply tag 0x24 ⟨.ok, [], t⟩)
      let dir := d.getD s.seq.dir
      let set := { s with seq := { s.seq with
        mode := m, dir := dir, pendingStep := if s.seq.mode = .step ∧ m ≠ .step then none else s.seq.pendingStep } }
      (s.col.volState = .paused ∨ s.seq.state.isRest = false → answers set) ∧
      (s.col.volState = .scanning → ¬(waits ∧ s.seq.mode = .step ∧ m ≠ .step) → answers (react set) ∧
        (works → react set = { set with seq := { set.seq with waiting := false } })) ∧
      (s.col.volState = .scanning → waits → s.seq.mode = .step → m ≠ .step → s.seq.levels.platenUp = false →
        (∀ leaf, ahead dir → turnedLeaf s dir = some leaf → answers (turning m dir leaf)) ∧
        (∀ leaf, ¬ahead dir → ahead dir.opposite → turnedLeaf s dir.opposite = some leaf →
          answers (turning m dir.opposite leaf)) ∧
        (¬ahead dir → ¬ahead dir.opposite → answers (raise .paused [3] (raise .volumeEnd [slot s.seq.p] { set with
          col := { s.col with volState := .paused }
          seq := { set.seq with pendingPause := none, hold := false, waiting := false } }))))) ∧
    (∀ q, resolutionOf w = some q → s.col.volState = .paused →
      (s.seq.state ≠ .fault → exec (.resolve tag [w]) s = .next (giveReply tag 0x25 ⟨.wrongState, [], s⟩)) ∧
      (∀ r, s.seq.state = .fault → s.seq.fault = some r →
        let allowed := if r.cause = .doubleTurn then q = .giveBack ∨ q = .advance else q = .retry ∨ q = .hand
        (¬allowed → exec (.resolve tag [w]) s = .next (giveReply tag 0x25 ⟨.wrongState, [], s⟩)) ∧
        (allowed → q = .advance → leafBeyond s r = none →
          exec (.resolve tag [w]) s = .next (giveReply tag 0x25 ⟨.outOfRange, [], s⟩)) ∧
        (allowed → q ≠ .advance ∨ leafBeyond s r ≠ none →
          exec (.resolve tag [w]) s = .next (giveReply tag 0x25
            ⟨.ok, [], { s with seq := { s.seq with fault := some { r with resolution := q } } }⟩))))

/-- 02 R51: MOVE in a volume state other than SCANNING starts its manual motion with the drive and the time limit of
its motion, unless one is in flight; where its input stands at its level already it has ended at once, its drive off
(log 30). RELEASE VACUUM turns the valve off. Either sets the disturbed flag of a PAUSED volume. The arrival of its
input ends a manual motion, its drive off; an arrival sets its line too (log 8), and platen up's the moved mark of a side's
shot (06 R126, as EdgesAndReleases says it). -/
def Obligations.ManualMotions : Prop :=
  ∀ (tag : Byte) (s : State), takesDirective s = true → s.col.volState ≠ .scanning →
    let disturbed := s.seq.disturbed || s.col.volState == .paused
    exec (.releaseVacuum tag []) s = .next (giveReply tag 0x27 ⟨.ok, [], { s with seq := { s.seq with
      disturbed := disturbed, outputs := { s.seq.outputs with vacuum := false } } }⟩) ∧
    (∀ w m, manualOf w = some m →
      (s.seq.manual ≠ none → exec (.move tag [w]) s = .next (giveReply tag 0x26 ⟨.busy, [], s⟩)) ∧
      (s.seq.manual = none →
        let o := s.seq.outputs
        let started (o : Outputs) (limit : Nat) : Host.Outcome State Fault Refusal :=
          .next (giveReply tag 0x26 ⟨.ok, [], { s with seq := { s.seq with
            disturbed := disturbed, manual := some m, manualLeft := s.settings.motionLimits.getD limit 0
            outputs := o } }⟩)
        let ended (o : Outputs) : Host.Outcome State Fault Refusal :=
          .next (giveReply tag 0x26 ⟨.ok, [], { s with seq := { s.seq with
            disturbed := disturbed, manual := none, manualLeft := 0, outputs := o } }⟩)
        (m = .platenUp → exec (.move tag [w]) s =
          if s.seq.levels.platenUp then ended { o with platen := .off } else started { o with platen := .up } 2) ∧
        (m = .platenDown → exec (.move tag [w]) s =
          if s.seq.levels.platenDown then ended { o with platen := .off } else started { o with platen := .down } 1) ∧
        (m = .armHome → exec (.move tag [w]) s =
          if s.seq.levels.home then ended { o with arm := .brake } else started { o with arm := towardSpine s } 6) ∧
        (m = .liftsDown → exec (.move tag [w]) s = started { o with lifts := both .lower } 0))) ∧
    (s.start ≠ .held → s.seq.state.motion = none →
      let after (i : Input) : State := setLevel i true (lineArrives i true s)
      let ended (u : State) (o : Outputs) : Host.Outcome State Fault Refusal :=
        .next (idleBoundary { u with seq := { u.seq with manual := none, manualLeft := 0, outputs := o } })
      (s.seq.manual = some .platenUp → exec (.platenUpArrival true) s =
        ended (platenRose (after .platenUp)) { s.seq.outputs with platen := .off }) ∧
      (s.seq.manual = some .platenDown → exec .platenDownArrival s =
        ended (after .platenDown) { s.seq.outputs with platen := .off }) ∧
      (s.seq.manual = some .armHome → exec (.homeArrival true) s =
        ended (after .home) { s.seq.outputs with arm := .brake }))

/-! ### Lamps and the conservation lock (03, 04) -/

/-- 03 R54 and R55, R57 and R58. In its slot a channel conducts from the slot's start for duty/255 of it, and in no
other; its drive duty is 0 while it is not READY or its bank DARK, at STROBE its duty in the running strobe, and at
PREVIEW the preview duty within the cap, as the slot's start found it for the slot's owner (log 2). CLEAR LAMP of
channel 0 to 11 clears its lock-out, unless its bank is lit for a strobe, and answers with its state. A judged slot that
finds a fault, at a drive duty of 8 or more, locks its channel out with the fault kind and raises CHANNEL_LOCKOUT; the
channel is dark at once and, in a running strobe, for the rest of it, and no other channel's drive changes. -/
def Obligations.LampLockouts : Prop :=
  ∀ s : State,
    (∀ (c : Fin 12) (k : Nat),
      let b : Side := if c.val < 6 then .left else .right
      let i : Nat := if c.val < 6 then c else c - 6
      let duty : Nat :=
        if lockoutOf s c ≠ none ∨ (calOf s c).rating = 0 then 0
        else match bankLevel s b with
          | .dark => 0
          | .preview => if s.lamps.scanSlot.get b = i then s.lamps.slotDuty.get b
              else min (calOf s c).preview (calOf s c).cap
          | .strobe => ((s.lamps.strobe.get b).map fun z => z.duties.getD i 0).getD 0
      driveDuty s c = duty ∧ (conducts s c k = true ↔ s.lamps.scanSlot.get b = i ∧ k < duty)) ∧
    (∀ (tag : Byte) (w : Slot), takesDirective s = true →
      exec (.clearLamp tag [w]) s = .next (giveReply tag 0x30 (
        if 11 < w.toNat then ⟨.outOfRange, [], s⟩
        else if bankLevel s (if w.toNat < 6 then .left else .right) = .strobe then ⟨.busy, [], s⟩
        else ⟨.ok, [if 0 < (calOf s w.toNat).rating then 1 else 0],
          { s with lamps := { s.lamps with lockouts := s.lamps.lockouts.set w.toNat none } }⟩))) ∧
    (∀ (c : Fin 12) (k : LampFault), s.start ≠ .held → lampsLaw s.lamps →
      (driveDuty s c < 8 → exec (.channelLockout c k) s = .next (idleBoundary s)) ∧
      (8 ≤ driveDuty s c → ∃ t,
        exec (.channelLockout c k) s = .next (idleBoundary
          (raise .channelLockout [slot c, if k = .openString then 0 else 1] t)) ∧
        t = { s with lamps := { s.lamps with
          lockouts := s.lamps.lockouts.set c (some k), strobe := t.lamps.strobe } } ∧
        (∀ b, (t.lamps.strobe.get b).map (·.scans) = (s.lamps.strobe.get b).map (·.scans)) ∧
        driveDuty t c = 0 ∧ strobeDuty t c = 0 ∧ ∀ d : Fin 12, d ≠ c → driveDuty t d = driveDuty s d))

/-- 04 R88 to R90: LOCK closes the lock; UNLOCK with the key opens it and clears the mismatch count, with another key
closes it and counts, after four mismatches is refused with LOCKED whatever it carries, and is BUSY during a recall;
SET KEY is BUSY during a store or recall, whatever the lock (10 R176, R177), and else replaces the key of an open lock. -/
def Obligations.TheConservationLock : Prop :=
  ∀ (tag : Byte) (w : Slot) (s : State), takesDirective s = true →
    exec (.lock tag []) s = .next (giveReply tag 0x31 ⟨.ok, [], { s with dose := { s.dose with lock := .closed } }⟩) ∧
    exec (.unlock tag [w]) s = .next (giveReply tag 0x32 (
      if 4 ≤ s.dose.mismatches then ⟨.locked, [], s⟩
      else if s.store.state = .recalling then ⟨.busy, [], s⟩
      else if w = s.settings.key then
        ⟨.ok, [], { s with dose := { s.dose with lock := .unlocked, mismatches := 0 } }⟩
      else ⟨.keyMismatch, [],
        { s with dose := { s.dose with lock := .closed, mismatches := s.dose.mismatches + 1 } }⟩)) ∧
    exec (.setKey tag [w]) s = .next (giveReply tag 0x33 (
      if s.store.state ≠ .idle then ⟨.busy, [], s⟩
      else if s.dose.lock = .closed then ⟨.locked, [], s⟩
      else ⟨.ok, [], { s with settings := { s.settings with key := w } }⟩))

/-! ### The tally and its closure (07) -/

/-- 01 R22, 07 R146 R153, 08 R162 R164: the reads answer OK and change nothing, but for the counts that CLEAR sets
to 0. An index outside a table, or leaves beyond the last, are OUT_OF_RANGE. Where the rules name the items and not the
slots, the layout of the results is the model's: `statusResults` (log 23), `collationEntry` (logs 24, 25) and
`closureSlots` (log 26); that of `tallyResults` is 11 R183's. -/
def Obligations.ReadsChangeNothing : Prop :=
  ∀ (tag : Byte) (a b : Slot) (s : State), takesDirective s = true →
    (s.col.volState ≠ .empty → s.col.volState ≠ .loading → 1 ≤ b.toNat → b.toNat ≤ 64 →
      exec (.readTally tag [a, b]) s = .next (giveReply tag 0x40 (
        if a.toNat + b.toNat ≤ leafCount s then ⟨.ok, tallyResults s a.toNat b.toNat, s⟩
        else ⟨.outOfRange, [], s⟩))) ∧
    (∀ c, s.col.volState = .closed → s.tally.closure = some c →
      let first := if a.getLsbD 0 then b.toNat else 0
      exec (.readClosure tag [a, b]) s = .next (giveReply tag 0x43 (
        if first < c.gatherings.length then ⟨.ok, closureSlots c first, s⟩ else ⟨.outOfRange, [], s⟩))) ∧
    (a.toNat ≤ 9 → exec (.readTableSettings tag [a, b]) s = .next (giveReply tag 0x60 (
      match settingsEntry s a.toNat b.toNat with
      | some results => ⟨.ok, results, s⟩
      | none => ⟨.outOfRange, [], s⟩))) ∧
    (10 ≤ a.toNat → a.toNat ≤ 13 → exec (.readTableCollation tag [a, b]) s = .next (giveReply tag 0x60 (
      if s.col.volState = .empty then ⟨.wrongState, [], s⟩
      else match collationEntry s a.toNat b.toNat with
        | some results => ⟨.ok, results, s⟩
        | none => ⟨.outOfRange, [], s⟩))) ∧
    exec (.readStatus tag [a]) s = .next (giveReply tag 0x62 ⟨.ok, statusResults s,
      if a.getLsbD 0 then { s with
        link := { s.link with errors := 0, discards := 0 }
        ports := ⟨{ s.ports.left with unsolicited := 0, refused := 0 },
                  { s.ports.right with unsolicited := 0, refused := 0 }⟩ }
      else s⟩)

/-- 07 R143, in PAUSED and in SCANNING: RETAKE of a CAPTURED, REJECTED or WITHHELD side makes it PENDING again, its
takes, dose and stamps kept, moves its count, and puts it in the list; it answers with the list's length and the
side's opening. A full list refuses it, and so does every other state of the side. While SCANNING what follows an event
follows (`react`, log 13): a side in view of a held opening whose channel is DONE, or IDLE without a target, is taken up
as a new visit from shot 1, where capture is allowed and its port is IDLE (05 R96, R98), and the opening is no longer
settled (02 R37). -/
def Obligations.RetakeAsksForASideAgain : Prop :=
  ∀ (tag : Byte) (ws : List Slot) (s : State) (i : Nat) (f : Face) (q : TallyFields), takesDirective s = true →
    s.col.volState = .paused ∨ s.col.volState = .scanning → ws.length = 6 → findLeaf s (ws.take 5) = .ok i →
    faceOf (ws.getD 5 0) = some f → fieldsOf s (.side i f) = some q →
    (128 ≤ s.tally.retakes.length → exec (.retake tag ws) s = .next (giveReply tag 0x42 ⟨.listFull, [], s⟩)) ∧
    (s.tally.retakes.length < 128 →
      (q.state = .pending → exec (.retake tag ws) s = .next (giveReply tag 0x42 ⟨.notSettled, [], s⟩)) ∧
      (q.state = .suppressed ∨ q.state = .skipped ∨ q.state = .absent →
        exec (.retake tag ws) s = .next (giveReply tag 0x42 ⟨.wrongState, [], s⟩)) ∧
      (q.state = .captured ∨ q.state = .rejected ∨ q.state = .withheld →
        ∃ t, exec (.retake tag ws) s = .next (giveReply tag 0x42
            ⟨.ok, [slot (s.tally.retakes.length + 1), slot (openingOf s i f)],
              if s.col.volState = .paused then t else react t⟩) ∧
          t = { s with
            col := { s.col with leaves := t.col.leaves }
            tally := { s.tally with sideCounts := t.tally.sideCounts, retakes := t.tally.retakes } } ∧
          (∀ x, fieldsOf t x = if x = .side i f then some { q with state := .pending } else fieldsOf s x) ∧
          t.tally.sideCounts = (s.tally.sideCounts.sub1 q.state).add1 .pending ∧
          t.tally.retakes.length = s.tally.retakes.length + 1 ∧
          (∀ e, e ∈ t.tally.retakes ↔ e = (i, f) ∨ e ∈ s.tally.retakes) ∧
          ∀ b, s.col.volState = .scanning → s.seq.state = .held → s.seq.hold = true → captureAllowed s = true →
            inView s b = some (.side i f) → (s.port b).state = .idle →
            (s.chan b).state = .done ∨ ((s.chan b).state = .idle ∧ (s.chan b).target = none) →
            (s.chan b.other).atRest = false ∨ ((s.chan b.other).state = .done ∧
              ∀ x, inView s b.other = some x → isPending s x = false) →
            let r := recipeOf s (.side i f)
            1 ≤ r.shotCount → react t = { t with
              seq := { s.seq with waiting := false }
              chans := s.chans.set b { Channel.afterReset with
                state := .gating, target := some (.side i f), shot := 1
                copy := some ⟨(r.shots.getD 0 ⟨[], 0⟩).duties, (r.shots.getD 0 ⟨[], 0⟩).time, r.lo, r.hi, r.clipLimit,
                  r.takeLimit, r.shotCount⟩ }
              ports := s.ports.set b { s.port b with
                state := .armed
                armed := some ⟨s.col.serial, b, .side i f, classOf s (.side i f), 1, r.shotCount, 1, r.lo, r.hi,
                  r.clipLimit, .live, none, false⟩ } }))

/-- 07 R148 to R152: CLOSE VOLUME in READY or PAUSED with no manual motion. Without FORCE and with targets PENDING it
is INCOMPLETE, its slots the counts and then the lowest leaf with a presence slot (log 26). Else, with FORCE, every
PENDING target first becomes SKIPPED; the closure record is built from the tally as it then stands: the volume's shelf
mark, part and serial, the counts, the doses, the clock, the greatest dose with the first target in digest order that
has it (none where it is 0), each gathering's label and its sides captured and not captured, and the digest over every
target's tally fields, leaves before fold-outs. The clock stops, and the volume is CLOSED. The sequencer goes to STOPPED
with every drive braked, its stack, pending step and pause, fault record, disturbed flag and marks gone, and the pointer,
the mode and the vacuum valve as they were (log 31); leaving HELD or PANEL_HELD ends the visits of the channels at rest;
and both preview cuts are cleared (03 R62). No dose changes. -/
def Obligations.CloseVolumeClosesTheAccount : Prop :=
  ∀ (tag : Byte) (w : Slot) (s : State), takesDirective s = true →
    s.col.volState = .ready ∨ s.col.volState = .paused →
    (s.seq.manual ≠ none → exec (.closeVolume tag [w]) s = .next (giveReply tag 0x41 ⟨.busy, [], s⟩)) ∧
    (s.seq.manual = none → w.getLsbD 0 = false → 0 < s.tally.sideCounts.pending + s.tally.panelCounts.pending →
      exec (.closeVolume tag [w]) s = .next (giveReply tag 0x41 ⟨.incomplete,
        [slot s.tally.sideCounts.pending, slot s.tally.panelCounts.pending] ++ slotsOpt (lowestPending s), s⟩)) ∧
    (s.seq.manual = none →
      w.getLsbD 0 = true ∨ s.tally.sideCounts.pending + s.tally.panelCounts.pending = 0 →
      let forced := if w.getLsbD 0 then (allTargets s).countP (isPending s) else 0
      ∃ t c, exec (.closeVolume tag [w]) s = .next (giveReply tag 0x41
          ⟨.ok, [slot s.col.serial, slot forced, c.digest], t⟩) ∧
        t = { s with
          col := { s.col with volState := .closed, leaves := t.col.leaves, foldouts := t.col.foldouts }
          tally := { s.tally with
            sideCounts := t.tally.sideCounts, panelCounts := t.tally.panelCounts, retakes := t.tally.retakes
            clockRuns := false, closure := some c }
          seq := { s.seq with
            state := .stopped, stack := [], stackBank := none, kind := none, turn := none, pendingPause := none
            pendingStep := none, foldMark := both false, settledHere := both false, fault := none, disturbed := false
            hold := false, holdGiven := false, waiting := false, motionLeft := 0
            outputs := { s.seq.outputs with arm := .brake, puff := false, platen := .off, lifts := both .off } }
          lamps := { s.lamps with cut := both false }
          chans := t.chans } ∧
        (s.seq.state ≠ .held → s.seq.state ≠ .panelHeld → t.chans = s.chans) ∧
        (s.seq.state = .held ∨ s.seq.state = .panelHeld → ∀ b,
          t.chan b = if (s.chan b).state = .idle ∨ (s.chan b).state = .done then .afterReset else s.chan b) ∧
        (∀ x, fieldsOf t x = if w.getLsbD 0 = true ∧ isPending s x = true
          then (fieldsOf s x).map ({ · with state := .skipped }) else fieldsOf s x) ∧
        c.serial = s.col.serial ∧ c.forced = forced ∧ c.volDose = s.dose.volDose ∧ c.seconds = s.tally.clock ∧
        c.sideCounts = t.tally.sideCounts ∧ c.panelCounts = t.tally.panelCounts ∧
        c.priorDose = s.col.volume.bind (·.priorDose) ∧
        (∀ v, s.col.volume = some v → c.shelfMark = v.shelfMark ∧ c.part = v.part) ∧
        (∀ x, doseOf s x ≤ c.largestDose) ∧ (c.largestDose = 0 → c.largestTarget = none) ∧
        (c.largestDose ≠ 0 → ∃ x before after, allTargets s = before ++ x :: after ∧ c.largestTarget = some x ∧
          doseOf s x = c.largestDose ∧ ∀ y ∈ before, doseOf s y < c.largestDose) ∧
        c.gatherings.length = gatheringCount s.col.gatherings ∧
        (∀ i, i < gatheringCount s.col.gatherings →
          let e := s.col.gatherings.getD i none
          let captured := ((t.col.leaves.filter fun l => decide (l.gathering = some i)).map fun l =>
            [l.recto, l.verso].countP fun q => decide (q.state = .captured)).sum
          c.gatherings[i]? = some {
            label := (e.map (·.label)).getD [], captured := captured
            notCaptured := 2 * (e.map (·.leafCount)).getD 0 - captured }) ∧
        c.digest = crc32 (slotsBytes (
          (t.col.leaves.flatMap fun l => tallySlots l.recto ++ tallySlots l.verso) ++
          t.col.foldouts.flatMap fun e => (e.getD []).flatMap fun p => tallySlots p.tally)))

/-! ### The settings tables (04 R71 R72 R78, 05 R94, 06 R117, 08 R162 R163, 09 R173) -/

/-- 04 R71 and R78 with the lock OPEN and no store or recall in flight: an accepted write to a guarded table holds each
quantity at its value or at the nearer end of its range, and answers OK_CLAMPED when one had to be brought in. The
channel's or the class's other fields stand. Of a running strobe, a channel whose rating has become 0 is dark for the
rest (03 R55): `darkenStrobes` sets the duty of every channel that is not READY to 0 there and changes nothing else. -/
def Obligations.GuardedWritesHoldTheirValues : Prop :=
  ∀ (tag : Byte) (i : Slot) (s : State), takesDirective s = true → s.store.state = .idle → s.dose.lock = .unlocked →
    let answers (c : Instr) (clamped : Bool) (t : State) : Prop :=
      exec c s = .next (giveReply tag 0x61 ⟨if clamped then .okClamped else .ok, [], t⟩)
    let with' (q : Settings) : State := { s with settings := q }
    (∀ t : State, darkenStrobes t = { t with lamps := { t.lamps with strobe := ⟨
      t.lamps.strobe.left.map fun z => { z with
        duties := z.duties.mapIdx fun c d => if channelReady t c then d else 0 },
      t.lamps.strobe.right.map fun z => { z with
        duties := z.duties.mapIdx fun c d => if channelReady t (6 + c) then d else 0 }⟩ } }) ∧
    (i.toNat ≤ 11 →
      (∀ r t : Slot, answers (.writeLampCalibration tag [i, r, t])
        (65535 < r.toNat || t.toInt < -256 || 255 < t.toInt) (darkenStrobes (with' { s.settings with
          calibration := s.settings.calibration.modify i.toNat fun c => { c with
            rating := min r.toNat 65535, trim := max (-256) (min t.toInt 255) } }))) ∧
      (∀ d : Slot, answers (.writeDutyCaps tag [i, d]) (255 < d.toNat) (with' { s.settings with
        calibration := s.settings.calibration.modify i.toNat ({ · with cap := min d.toNat 255 }) })) ∧
      (∀ d : Slot, answers (.writePreviewDuties tag [i, d]) (255 < d.toNat) (with' { s.settings with
        calibration := s.settings.calibration.modify i.toNat ({ · with preview := min d.toNat 255 }) }))) ∧
    (i.toNat ≤ 3 → s.col.volState = .empty ∨ s.col.volState = .closed →
      ∀ side hi lo : Slot, answers (.writeDoseLimits tag [i, side, hi, lo])
        (4000000000 < side.toNat || 65535 < hi.toNat) (with' { s.settings with
          limits := s.settings.limits.set i.toNat {
            side := min side.toNat 4000000000
            volume := if hi.toNat ≤ 65535 then hi.toNat * 2 ^ 32 + lo.toNat else 2 ^ 48 - 1 } }))

/-- 04 R72: a write to a guarded table that has its form is refused with BUSY during a store or recall, then with LOCKED
while the lock is CLOSED, then, to the dose limits, with VOLUME_ACTIVE unless the volume is EMPTY or CLOSED, then with
OUT_OF_RANGE for an index outside the table; a write without its form is BAD_FORM. -/
def Obligations.GuardedWritesAreJudgedInOrder : Prop :=
  ∀ (tag : Byte) (ws : List Slot) (s : State), takesDirective s = true →
    let judged (c : Instr) (slots entries : Nat) (idleOnly : Bool) : Prop :=
      let refused (code : ReplyCode) : Prop := exec c s = .next (giveReply tag 0x61 ⟨code, [], s⟩)
      let active := s.col.volState ≠ .empty ∧ s.col.volState ≠ .closed
      (ws.length ≠ slots → refused .badForm) ∧
      (ws.length = slots →
        (s.store.state ≠ .idle → refused .busy) ∧
        (s.store.state = .idle → s.dose.lock = .closed → refused .locked) ∧
        (s.store.state = .idle → s.dose.lock = .unlocked → idleOnly = true → active → refused .volumeActive) ∧
        (s.store.state = .idle → s.dose.lock = .unlocked → (idleOnly = true → ¬active) → entries ≤ (ws.getD 0 0).toNat →
          refused .outOfRange))
    judged (.writeLampCalibration tag ws) 3 12 false ∧ judged (.writeDutyCaps tag ws) 2 12 false ∧
    judged (.writePreviewDuties tag ws) 2 12 false ∧ judged (.writeDoseLimits tag ws) 4 4 true

/-- 05 R94, 06 R117, 08 R162 R163 and 09 R173: the tables without a lock are BUSY during a store or recall, and then
OUT_OF_RANGE outside their entries (BUSY first, by log 20). A WRITE TABLE naming no settings table is OUT_OF_RANGE,
whatever follows the table number: an unknown table by log 20, a collation table by log 48 (the model's choice).
Limits, timers and each quantity of a recipe are brought to the nearer end, a mean window's hi to lo where it lies below
(answered OK_CLAMPED, log 35); a geometry's width is clamped and lowered to even, then its columns and rows are brought
within it, and x1 and y1 up to x0 and y0. What is in range is held as written and answered OK, any change OK_CLAMPED. A
polarity or level outside its values is OUT_OF_RANGE, and so is NORMAL for RESTARTED. -/
def Obligations.OpenWritesHoldTheirValues : Prop :=
  ∀ (tag : Byte) (s : State), takesDirective s = true →
    let answer (a : Answer) : Host.Outcome State Fault Refusal := .next (giveReply tag 0x61 a)
    let holds (clamped : Bool) (q : Settings) : Host.Outcome State Fault Refusal :=
      answer ⟨if clamped then .okClamped else .ok, [], { s with settings := q }⟩
    (∀ w ws, exec (.writeTableOther tag (w :: ws)) s = answer ⟨.outOfRange, [], s⟩) ∧
    (s.store.state ≠ .idle → ∀ i v a b c : Slot, ∀ ws,
      exec (.writeMotionLimits tag [i, v]) s = answer ⟨.busy, [], s⟩ ∧
      exec (.writeSensorPolarities tag [i, v]) s = answer ⟨.busy, [], s⟩ ∧
      exec (.writeNoticeLevels tag [i, v]) s = answer ⟨.busy, [], s⟩ ∧
      exec (.writeTimers tag [i, a, b, c]) s = answer ⟨.busy, [], s⟩ ∧
      (ws.length = 27 → exec (.writeRecipes tag ws) s = answer ⟨.busy, [], s⟩) ∧
      (ws.length = 8 → exec (.writeFrameGeometry tag ws) s = answer ⟨.busy, [], s⟩)) ∧
    (s.store.state = .idle → ∀ i v a b c : Slot, ∀ ws,
      (exec (.writeMotionLimits tag [i, v]) s =
        if 6 < i.toNat then answer ⟨.outOfRange, [], s⟩
        else holds (v.toNat < 100 || 20000 < v.toNat) { s.settings with
          motionLimits := s.settings.motionLimits.set i.toNat (max 100 (min v.toNat 20000)) }) ∧
      (exec (.writeSensorPolarities tag [i, v]) s =
        if 10 < i.toNat ∨ 1 < v.toNat then answer ⟨.outOfRange, [], s⟩
        else holds false { s.settings with
          polarities := s.settings.polarities.set i.toNat (if v = 0 then .activeHigh else .activeLow) }) ∧
      (exec (.writeNoticeLevels tag [i, v]) s =
        if 15 < i.toNat ∨ 1 < v.toNat ∨ (i.toNat = 15 ∧ v = 1) then answer ⟨.outOfRange, [], s⟩
        else holds false { s.settings with
          noticeLevels := s.settings.noticeLevels.set i.toNat (if v = 0 then .urgent else .normal) }) ∧
      (exec (.writeTimers tag [i, a, b, c]) s =
        if 0 < i.toNat then answer ⟨.outOfRange, [], s⟩
        else holds (600 < a.toNat || b.toNat < 200 || 10000 < b.toNat || 3 < c.toNat) { s.settings with
          darkDelay := min a.toNat 600, frameTimeout := max 200 (min b.toNat 10000), pickRetries := min c.toNat 3 }) ∧
      (ws.length = 27 → ws.getD 0 0 = i →
        let f (k : Nat) : Nat := (ws.getD (k + 1) 0).toNat
        let near (lo hi n : Nat) : Nat := max lo (min n hi)
        let shot (k : Nat) : Shot :=
          ⟨[0, 1, 2, 3, 4, 5].map fun c => near 0 255 (f (1 + 7 * k + c)), near 100 50000 (f (7 + 7 * k))⟩
        let lo := near 0 65535 (f 22)
        let r : Recipe := {
          shotCount := near 1 3 (f 0), shots := [shot 0, shot 1, shot 2], lo := lo, hi := max lo (near 0 65535 (f 23))
          clipLimit := near 0 1000 (f 24), takeLimit := near 1 7 (f 25) }
        exec (.writeRecipes tag ws) s = (
          if 15 < i.toNat then answer ⟨.outOfRange, [], s⟩
          else holds (decide (ws.drop 1 ≠ recipeSlots r))
            { s.settings with recipes := s.settings.recipes.set i.toNat r }) ∧
        r.law ∧ ∀ q : Recipe, q.law → ws.drop 1 = recipeSlots q → r = q) ∧
      (ws.length = 8 → ws.getD 0 0 = i →
        let f (k : Nat) : Nat := (ws.getD (k + 1) 0).toNat
        let near (lo hi n : Nat) : Nat := max lo (min n hi)
        let width := near 1024 12288 (f 0) / 2 * 2
        let height := near 1024 16384 (f 1)
        let x0 := min (f 2) (width - 1)
        let y0 := min (f 4) (height - 1)
        let g : Geometry := {
          width := width, height := height, x0 := x0, x1 := max x0 (min (f 3) (width - 1)), y0 := y0
          y1 := max y0 (min (f 5) (height - 1)), clipLevel := min (f 6) 65535 }
        exec (.writeFrameGeometry tag ws) s = (
          if 1 < i.toNat then answer ⟨.outOfRange, [], s⟩
          else holds (decide (ws.drop 1 ≠ geometrySlots g)) { s.settings with
            geometry := s.settings.geometry.set (if i = 0 then .left else .right) g }) ∧
        g.law ∧ ∀ q : Geometry, q.law → ws.drop 1 = geometrySlots q → g = q))

/-! ### The store, the link reset and the notices (08, 09, 10) -/

/-- 08 R165, 10 R176 and R177: RESET PART marks a link reset as waiting, unless a store is in flight; STORE SETTINGS
begins a store, the image invalid from then on, unless the store is busy; RECALL SETTINGS needs the volume EMPTY or
CLOSED and then an idle store, and closes the lock as it begins. -/
def Obligations.StoreRecallAndResetBegin : Prop :=
  ∀ (tag : Byte) (s : State), takesDirective s = true →
    exec (.resetPart tag []) s = .next (giveReply tag 0x63 (
      if s.store.state = .storing then ⟨.busy, [], s⟩
      else ⟨.ok, [], { s with link := { s.link with resetWaiting := true } }⟩)) ∧
    exec (.storeSettings tag []) s = .next (giveReply tag 0x64 (
      if s.store.state ≠ .idle then ⟨.busy, [], s⟩
      else ⟨.ok, [], { s with store := { s.store with state := .storing, elapsed := 0, torn := true } }⟩)) ∧
    exec (.recallSettings tag []) s = .next (giveReply tag 0x65 (
      if s.col.volState ≠ .empty ∧ s.col.volState ≠ .closed then ⟨.volumeActive, [], s⟩
      else if s.store.state ≠ .idle then ⟨.busy, [], s⟩
      else ⟨.ok, [], { s with
        store := { s.store with state := .recalling, elapsed := 0 }, dose := { s.dose with lock := .closed } }⟩))

/-- 09 R170: raising a source whose flag is clear sets the flag with the detail and the stamp, no repeats and the sent
mark clear; raising one whose flag is set adds a repeat, at most 255, and keeps the rest; no other source changes. A
raise before a clear is removed by it, one after a clear sets the flag afresh, and of two raises together the first
gives the detail. -/
def Obligations.RaisingANotice : Prop :=
  ∀ (src : Source) (detail other : List Slot) (s : State) (q : SourceState), s.notices.sources[src.num]? = some q →
    (raise src detail s).notices.master = s.notices.master ∧
    (∀ i, i ≠ src.num → (raise src detail s).notices.sources[i]? = s.notices.sources[i]?) ∧
    (q.flag = false →
      let stamp := if s.col.volState = .empty then none else some s.tally.clock
      (raise src detail s).notices.sources[src.num]? = some ⟨true, false, 0, detail, stamp⟩ ∧
      (raise src other (raise src detail s)).notices.sources[src.num]? = some ⟨true, false, 1, detail, stamp⟩) ∧
    (q.flag = true → (raise src detail s).notices.sources[src.num]? = some { q with
      repeats := if q.repeats < 255 then q.repeats + 1 else q.repeats }) ∧
    (∀ named : Slot, named.getLsbD src.num = true →
      (clearSources named (raise src detail s)).notices.sources[src.num]? = some ⟨false, false, 0, [], none⟩ ∧
      (raise src detail (clearSources named s)).notices.sources[src.num]? = some ⟨true, false, 0, detail,
        if s.col.volState = .empty then none else some s.tally.clock⟩) ∧
    { raise src detail s with notices := s.notices } = s

/-- 09 R172 and R173: CLEAR NOTICES, in every volume state, clears each source it names and keeps the others; SET NOTICE
ENABLES replaces the sixteen enables and the master enable and touches no source, unless a store or recall is in
flight. The frame boundary of an idle transmitter comes after the reply has joined its queue (log 10), so that the reply
goes before a notice that the enables have made eligible. -/
def Obligations.NoticeDirectives : Prop :=
  ∀ (tag : Byte) (w : Slot) (s : State), takesDirective s = true →
    (∃ sources, exec (.clearNotices tag [w]) s = .next (giveReply tag 0x70
        ⟨.ok, [], { s with notices := { s.notices with sources := sources } }⟩) ∧
      sources.length = s.notices.sources.length ∧
      ∀ i, sources[i]? = if w.getLsbD i = true then s.notices.sources[i]?.map fun _ => ⟨false, false, 0, [], none⟩
        else s.notices.sources[i]?) ∧
    exec (.setNoticeEnables tag [w]) s = .next (giveReply tag 0x71 (
      if s.store.state ≠ .idle then ⟨.busy, [], s⟩
      else ⟨.ok, [], { s with
        settings := { s.settings with enables := (List.range 16).map fun i => w.getLsbD i }
        notices := { s.notices with master := w.getLsbD 16 } }⟩))

/-! ### The link (08) -/

/-- 08 R156, R159 and R165, 11 R182: a frame is bad when its CRC-32 does not match, its payload length is above 2,048,
not the number of payload bytes received or no multiple of 4, or its kind is not DIRECTIVE. A bad frame on an UP link is
counted, at most to 65,535, and raises LINK_FAULT with FRAME_BAD and the kind byte; on a DOWN link there is none. A
directive discarded for a full queue is counted, and one dropped before a reset leaves no trace (log 9). -/
def Obligations.FramesThatCarryNoDirective : Prop :=
  ∀ (kind : Byte) (s : State),
    (s.link.up = true → exec (.badFrame kind) s = .next (idleBoundary (raise .linkFault [0, kind.zeroExtend 32] { s with
      link := { s.link with errors := if s.link.errors < 65535 then s.link.errors + 1 else s.link.errors } }))) ∧
    (s.link.up = false → exec (.badFrame kind) s = .next s) ∧
    exec .directiveDiscard s = .next (
      if s.link.up = true ∧ s.link.resetWaiting = false ∧ 8 ≤ s.link.replies.length then { s with
        link := { s.link with discards := if s.link.discards < 65535 then s.link.discards + 1 else s.link.discards } }
      else s) ∧
    exec .directiveDroppedBeforeReset s = .next s ∧
    ∀ (tag l0 l1 : Byte) (payload crc : List Byte), crc.length = 4 →
      kind ≠ 0x01 ∨ 2048 < l1.toNat * 256 + l0.toNat ∨ payload.length ≠ l1.toNat * 256 + l0.toNat ∨
        payload.length % 4 ≠ 0 ∨ crc ≠ slotBytes (crc32 ([kind, tag, l0, l1] ++ payload)) →
      decodeFrame ([kind, tag, l0, l1] ++ payload ++ crc) = .badFrame kind

/-- 08 R157 and R165: the link goes DOWN with LINK_FAULT (LOCK_LOST), a partly received frame is dropped uncounted, and
a scanning volume takes a link pause as it takes PAUSE (02 R46): pending in a motion and, in HELD and PANEL_HELD, while a
channel works, dropped where a pause is pending, and taken at once at a safe point; a channel at rest that can take up a
target is left out here. A frame in sending runs on, but where a link reset waits with its reply still queued: LINK_DOWN
itself makes that reset (log 11), which breaks the frame off (log 44), with the working settings at the factory values
(log 5), the lines outside as they were (log 7) and the supply's recovery time 0 (log 46). The link comes UP again without
a notice, and for the first time after a reset with RESTARTED and the reset's cause (10 R180), and an idle transmitter
takes at once (R166). A second loss or return changes nothing but the lock. A return while a reset is held or the start-up
recall runs is remembered (log 6). -/
def Obligations.TheLinkGoesDownAndUp : Prop :=
  ∀ s : State,
    let down := { s with link := { s.link with lock := false, up := false, incoming := [] } }
    (s.link.up = false → exec .linkDown s = .next { s with link := { s.link with lock := false, incoming := [] } }) ∧
    (s.link.up = true → s.link.resetWaiting = false ∨ s.link.replies = [] →
      (s.col.volState ≠ .scanning ∨ s.seq.pendingPause ≠ none →
        exec .linkDown s = .next (raise .linkFault [1, 0] down)) ∧
      (s.col.volState = .scanning → s.seq.pendingPause = none →
        let pends (q : Sequencer) : Prop :=
          exec .linkDown s = .next (raise .linkFault [1, 0] { down with seq := { q with pendingPause := some .link } })
        let offered : Prop := s.seq.hold = true ∧ captureAllowed s = true ∧ ∃ b, (s.chan b).atRest = true ∧
          (((s.chan b).state = .idle ∧ (s.chan b).target ≠ none) ∨ ∃ x, inView s b = some x ∧ isPending s x = true)
        let safe : Prop := bothAtRest s = true ∧
          (s.seq.state = .handWait ∨ s.seq.state = .foldWait ∨ (s.seq.state = .panelHeld ∧ ¬offered) ∨
            (s.seq.state = .held ∧ s.seq.hold = true ∧ ¬offered ∧ (noneInViewPending s = true → s.seq.waiting = true)))
        (s.seq.state.isMotion = true → pends s.seq) ∧
        (s.seq.state = .held → s.seq.hold = true → bothAtRest s = false → ¬offered →
          pends { s.seq with waiting := false }) ∧
        (s.seq.state = .held → s.seq.hold = false → bothAtRest s = false → pends s.seq) ∧
        (∀ b, s.seq.state = .panelHeld → s.seq.stackBank = some b → (s.chan b).atRest = false → ¬offered →
          pends s.seq) ∧
        (safe → exec .linkDown s = .next (raise .paused [1] (raise .linkFault [1, 0] { down with
          col := { s.col with volState := .paused }
          seq := { s.seq with hold := false, waiting := false } }))))) ∧
    (s.link.up = true → s.link.resetWaiting = true → s.link.replies ≠ [] → s.start ≠ .held →
      s.col.volState ≠ .scanning ∨ s.seq.pendingPause ≠ none →
      exec .linkDown s = .next { State.reset with
        pending := s.pending
        seq := .afterReset s.seq.outputs.vacuum
        link := .afterReset .linkReset
        store := { s.store with state := .idle, elapsed := 0, torn := s.store.torn || s.store.state == .storing }
        start := .held
        pins := s.pins }) ∧
    (s.start = .held ∨ s.start = .recall ∨ (s.start = .running ∧ s.link.up = true) →
      exec .linkUp s = .next { s with link := { s.link with lock := true } }) ∧
    (s.start = .running → s.link.up = false →
      exec .linkUp s = .next (idleBoundary { s with link := { s.link with lock := true, up := true } })) ∧
    (s.start = .awaitLink →
      exec .linkUp s = .next (idleBoundary (raise .restarted [slot s.link.cause.num] { s with
        start := .running, link := { s.link with lock := true, up := true } })))

/-- 08 R166 and 09 R171, at a frame boundary of an UP link (log 10 says when the model has one): the reply at the head
of the queue is taken first; with no reply, the selected notice, and its sent mark is set; with neither, a burst, from
the port that is not the last served when both offer one; and else the transmitter is idle. The selection is the lowest
rank among the eligible URGENT sources, or else among the eligible NORMAL ones. The boundary of an idle transmitter takes
the same frame; there is none while a frame is being sent or the link is DOWN. A frame that ends on a DOWN link has run
to its end, and nothing more is taken (R157), unless RESET PART's reset is then made (R165; log 11). -/
def Obligations.TheArbiterChoosesTheNextFrame : Prop :=
  (∀ s : State, s.link.up = false ∨ s.link.sending ≠ none → idleBoundary s = s) ∧
  (∀ s : State, s.link.up = true → s.link.sending = none → s.link.resetWaiting = false ∨ s.link.replies ≠ [] →
    exec .upstreamFrameSent s = .next (idleBoundary s)) ∧
  (∀ s : State, s.link.up = false → s.link.resetWaiting = false ∨ s.link.replies ≠ [] →
    exec .upstreamFrameSent s = .next { s with link := { s.link with sending := none } }) ∧
  ∀ s : State, s.link.up = true →
    (∀ r rest, s.link.replies = r :: rest → exec .upstreamFrameSent s = .next { s with
      link := { s.link with sending := some (.reply r), replies := rest } }) ∧
    (s.link.replies = [] → s.link.resetWaiting = false →
      (∀ i, i < 16 → eligible s i = true →
        (noticeLevel s i = .urgent ∨ ∀ j, j < 16 → eligible s j = true → noticeLevel s j ≠ .urgent) →
        (∀ j, j < i → eligible s j = true → noticeLevel s j ≠ noticeLevel s i) →
        let q := s.notices.sources.getD i .clear
        exec .upstreamFrameSent s = .next { s with
          link := { s.link with sending := some (.notice ⟨i, noticeLevel s i, q.repeats, q.stamp, q.detail⟩) }
          notices := { s.notices with sources := s.notices.sources.modify i ({ · with sent := true }) } }) ∧
      ((∀ i, i < 16 → eligible s i = false) →
        (∀ b head rest, (s.port b).queue = head :: rest →
          (s.port b.other).queue = [] ∨ s.link.lastServed = b.other →
          exec .upstreamFrameSent s = .next { s.setPort b { s.port b with queue := rest } with
            link := { s.link with sending := some (.burst head), lastServed := b } }) ∧
        ((∀ b, (s.port b).queue = []) →
          exec .upstreamFrameSent s = .next { s with link := { s.link with sending := none } })))

/-! ### Resets and start-up (10) -/

/-- 10 R178 and R179: a reset puts every block at its reset values and is held, its kind recorded; the image stands,
invalid when a store was in flight, and the vacuum valve is kept but after a power-on. A link reset is made only while
one waits and its reply has left the queue or the link is DOWN. While a reset is held a second cause changes nothing,
but that a power-on is recorded and turns the valve off (log 42). The lines outside stand (log 7), the working settings
stand at the factory values until the recall (log 5), the supply's recovery time is 0 (log 46), the receiver's lock is
forgotten (log 6) and a frame in sending is broken off (log 44). The frame's end makes the link reset itself (log 11). -/
def Obligations.ResetsPutEveryBlockAtItsResetValues : Prop :=
  ∀ s : State,
    let reset (cause : ResetCause) : State := { State.reset with
      pending := s.pending
      seq := .afterReset (if cause = .powerOn then false else s.seq.outputs.vacuum)
      link := .afterReset cause
      store := { s.store with state := .idle, elapsed := 0, torn := s.store.torn || s.store.state == .storing }
      start := .held
      pins := s.pins }
    (s.start ≠ .held →
      exec .powerOn s = .next (reset .powerOn) ∧ exec .resetLine s = .next (reset .resetLine) ∧
      exec .coreSupply s = .next (reset .coreSupply) ∧
      (s.link.resetWaiting = true → s.link.replies = [] ∨ s.link.up = false →
        exec .linkReset s = .next (reset .linkReset)) ∧
      (s.link.resetWaiting = true → s.link.replies = [] → exec .upstreamFrameSent s = .next (reset .linkReset))) ∧
    (s.link.resetWaiting = false ∨ (s.link.replies ≠ [] ∧ s.link.up = true) → exec .linkReset s = .next s) ∧
    (s.start = .held →
      exec .resetLine s = .next s ∧ exec .coreSupply s = .next s ∧
      exec .powerOn s = .next { s with
        link := { s.link with cause := .powerOn }, seq := { s.seq with outputs := .braked false } })

/-- 10 R176, R177 and R180: a released reset begins the recall of start-up; its end loads the image, or the factory
values when the image is not valid, restarts the dark delay and raises STORE; the link is then awaited, or UP at once
with RESTARTED where lock has been reported already (log 6). A store that ends well has written the working values, as
they stand at its end, and their CRC; its outcome comes with STORE_DONE (log 12). A recall loads a valid image, a
channel whose rating comes in as 0 dark for the rest of a running strobe (03 R55), and keeps the working values
otherwise. An end that nothing awaits changes nothing (log 9). -/
def Obligations.StartUpStoresAndRecalls : Prop :=
  ∀ s : State,
    let valid := s.store.torn = false ∧ s.store.crc = settingsCrc s.store.image
    let idle := { s.store with state := .idle, elapsed := 0 }
    let dark (q : Settings) : Lamps := { s.lamps with
      darkExpired := false, darkLeft := if q.darkDelay = 0 then none else some (q.darkDelay * 1000) }
    (s.start = .held → exec .resetReleased s = .next { s with
      start := .recall, store := { s.store with state := .recalling, elapsed := 0 } }) ∧
    (s.start ≠ .held → exec .resetReleased s = .next s) ∧
    (s.start = .recall → s.link.lock = false →
      (valid → exec .startupRecallDone s = .next (raise .store [1, 0] { s with
        start := .awaitLink, settings := s.store.image, lamps := dark s.store.image, store := idle })) ∧
      (¬valid → exec .startupRecallDone s = .next (raise .store [1, 1] { s with
        start := .awaitLink, settings := .factory, lamps := dark .factory, store := idle }))) ∧
    (s.start = .recall → s.link.lock = true →
      let q := if s.store.torn = false ∧ s.store.crc = settingsCrc s.store.image then s.store.image else .factory
      exec .startupRecallDone s = .next (idleBoundary (raise .restarted [slot s.link.cause.num]
        (raise .store [1, if valid then 0 else 1] { s with
          start := .running, settings := q, lamps := dark q, store := idle
          link := { s.link with up := true } })))) ∧
    (s.start ≠ .recall → exec .startupRecallDone s = .next s) ∧
    (s.store.state = .storing →
      exec (.storeDone true) s = .next (idleBoundary (raise .store [0, 0] { s with
        store := { idle with image := s.settings, crc := settingsCrc s.settings, torn := false } })) ∧
      exec (.storeDone false) s = .next (idleBoundary (raise .store [0, 1] { s with store := idle }))) ∧
    (s.store.state ≠ .storing → ∀ ok, exec (.storeDone ok) s = .next s) ∧
    (s.start = .running → s.store.state = .recalling →
      (valid → exec .recallDone s = .next (idleBoundary (raise .store [1, 0] (darkenStrobes { s with
        settings := s.store.image, lamps := dark s.store.image, store := idle })))) ∧
      (¬valid → exec .recallDone s = .next (idleBoundary (raise .store [1, 1] { s with store := idle })))) ∧
    (s.store.state ≠ .recalling → exec .recallDone s = .next s)

/-! ### Arrivals at the turn sequencer (02). `setLevel i a (lineArrives i a s)` is the state with the input's line, last
reading and debounced level at `a`, and nothing else changed (log 8). -/

/-- 02 R31 to R34, R40, R42 and R48: platen up by its sequence kind, and a machine turn, arrival by arrival. Of a hand
turn platen up leads to HAND_WAIT with the turn owed and its notice, of a fold-out's raising to FOLD_WAIT, of a RESTORE
to HOME, or to PRESENT where the arm is home already. Of a machine turn it leads to PICK; the source far position brakes the arm
and turns vacuum and air on; vacuum good leads to CARRY with no edge counted; the destination far position leads to LAY
with the double mark judged, or, with no edge counted, to another PICK; and the loss of vacuum moves p and leads to
HOME, or after a double carry to the fault DOUBLE_TURN and PAUSED. Platen up's
arrival sets the moved mark of a side's shot (06 R126): of the header completed in ARMED, and of the frame in reception;
it does so outside PLATEN_UP too, where the sequencer does nothing. An arrival sets its line too (log 8). -/
def Obligations.TheMachineTurn : Prop :=
  ∀ s : State, s.start ≠ .held → s.col.volState = .scanning → s.seq.manual = none →
    let after (i : Input) (active : Bool) : State := setLevel i active (lineArrives i active s)
    let o := s.seq.outputs
    let ofSide (h : Header) : Bool := match h.target with | .side _ _ => true | .panel _ _ => false
    let watched (p : Port) : Port := match p.state with
      | .idle => p
      | .armed => { p with armed := p.armed.map fun h => if ofSide h && h.fired.isSome then { h with moved := true } else h }
      | .receiving => { p with frame := p.frame.map fun q => if p.armed.any ofSide then { q with moved := true } else q }
    let u : State := { after .platenUp true with ports := ⟨watched s.ports.left, watched s.ports.right⟩ }
    (s.seq.state ≠ .platenUp → exec (.platenUpArrival true) s = .next (idleBoundary (react u))) ∧
    (s.seq.state = .platenUp →
      (∀ turn, s.seq.kind = some .handRaise → s.seq.turn = some turn → s.seq.pendingPause = none →
        exec (.platenUpArrival true) s = .next (idleBoundary (raise .handWait
          [slot turn.leaf, if turn.dir = .forward then 0 else 1] { u with seq := { u.seq with
            state := .handWait, owed := some turn.dir, kind := none, turn := none, motionLeft := 0
            outputs := { o with platen := .off } } }))) ∧
      (s.seq.kind = some .foldRaise → s.seq.pendingPause = none →
        exec (.platenUpArrival true) s = .next (idleBoundary (reseat { u.seq with
          state := .foldWait, kind := none, turn := none, motionLeft := 0, outputs := { o with platen := .off } } u))) ∧
      (s.seq.kind = some .restore → s.seq.levels.home = false →
        exec (.platenUpArrival true) s = .next (idleBoundary { u with seq := { u.seq with
          state := .home, motionLeft := s.settings.motionLimits.getD 6 0
          outputs := { o with platen := .off, arm := towardSpine s } } })) ∧
      (s.seq.kind = some .restore → s.seq.levels.home = true →
        (s.seq.levels.leftContact && s.seq.levels.rightContact) = false →
        exec (.platenUpArrival true) s = .next (idleBoundary { u with seq := { u.seq with
          state := .present, motionLeft := s.settings.motionLimits.getD 0 0
          outputs := { o with platen := .off, arm := .brake, lifts := ⟨if s.seq.levels.leftContact then .off else .raise,
            if s.seq.levels.rightContact then .off else .raise⟩ } } }))) ∧
    (s.seq.kind = some .machineTurn →
    (s.seq.state = .platenUp → s.seq.levels.get (farInput (sourceSide s)) = false → s.seq.levels.vacuumGood = false →
      exec (.platenUpArrival true) s = .next (idleBoundary { u with seq := { u.seq with
        state := .pick, motionLeft := s.settings.motionLimits.getD 3 0
        outputs := { o with platen := .off, arm := armToward (sourceSide s) } } })) ∧
    (s.seq.state = .pick → exec (.farPositionArrival (sourceSide s) true) s = .next (idleBoundary (
      let u := after (farInput (sourceSide s)) true
      { u with seq := { u.seq with
        lastFar := some (sourceSide s), outputs := { o with arm := .brake, vacuum := true, puff := true } } }))) ∧
    (s.seq.state = .pick → s.seq.levels.get (farInput (destSide s)) = false →
      exec .vacuumGoodArrival s = .next (idleBoundary (
        let u := after .vacuumGood true
        { u with seq := { u.seq with
          state := .carry, edges := 0, double := false, edgesFixed := false
          motionLeft := s.settings.motionLimits.getD 4 0
          outputs := { o with puff := false, arm := armToward (destSide s) } } }))) ∧
    (s.seq.state = .carry →
      let u := after (farInput (destSide s)) true
      (1 ≤ s.seq.edges → s.seq.levels.vacuumGood = true →
        exec (.farPositionArrival (destSide s) true) s = .next (idleBoundary { u with seq := { u.seq with
          state := .lay, double := decide (2 ≤ s.seq.edges), lastFar := some (destSide s)
          motionLeft := s.settings.motionLimits.getD 5 0, outputs := { o with arm := .brake, vacuum := false } } })) ∧
      (s.seq.edges = 0 → s.seq.retries < s.settings.pickRetries → s.seq.levels.get (farInput (sourceSide s)) = false →
        s.seq.levels.vacuumGood = false →
        exec (.farPositionArrival (destSide s) true) s = .next (idleBoundary { u with seq := { u.seq with
          state := .pick, retries := s.seq.retries + 1, lastFar := some (destSide s)
          motionLeft := s.settings.motionLimits.getD 3 0
          outputs := { o with vacuum := false, puff := false, arm := armToward (sourceSide s) } } }))) ∧
    (s.seq.state = .lay →
      let u := after .vacuumGood false
      (s.seq.double = false → s.seq.levels.home = false →
        exec .vacuumGoodRelease s = .next (idleBoundary (reseat { u.seq with
          state := .home, foldMark := both false, settledHere := both false
          p := match turnDir s with
            | .forward => presentAfter s s.seq.p
            | .backward => (presentBefore s s.seq.p).getD s.seq.p
          motionLeft := s.settings.motionLimits.getD 6 0, outputs := { o with arm := towardSpine s } } u))) ∧
      (∀ turn, s.seq.double = true → bothAtRest s = true → s.seq.turn = some turn →
        exec .vacuumGoodRelease s = .next (idleBoundary (raise .paused [2] (raise .doubleTurn [slot turn.leaf, slot s.seq.edges] { u with
          col := { s.col with volState := .paused }
          seq := { u.seq with
            state := .fault, pendingPause := none, hold := false, waiting := false
            fault := some ⟨.lay, .doubleTurn, some turn.leaf, some turn.dir, .none⟩
            outputs := { o with arm := .brake, puff := false, platen := .off, lifts := both .off } } }))))))

/-- 02 R31, R35, R37, R38 and R46, 05 R96 and R98: from HOME to HELD. HOME leads to PRESENT, which raises each half
until its contact; the second contact leads to PLATEN_DOWN; and platen down enters HELD, where a pending pause is taken
before the hold, and else the hold is granted. Each channel with a PENDING side in view then arms its first shot, unless
capture is not allowed. With nothing PENDING in view the opening is settled at once: OPENING_DONE is raised, and with no
fold-out in view and no step pending the sequencer waits in STEP mode, and in the others raises VOLUME_END and pauses
when no side is PENDING; ResumeContinuesFromItsRestState says what the settled opening does besides. An arrival sets its
line too (log 8). -/
def Obligations.TheOpeningIsPresentedAndHeld : Prop :=
  ∀ s : State, s.start ≠ .held → s.col.volState = .scanning → s.seq.manual = none →
    let after (i : Input) : State := setLevel i true (lineArrives i true s)
    let o := s.seq.outputs
    (s.seq.state = .home → (s.seq.levels.leftContact && s.seq.levels.rightContact) = false →
      exec (.homeArrival true) s = .next (idleBoundary { after .home with seq := { (after .home).seq with
        state := .present, motionLeft := s.settings.motionLimits.getD 0 0
        outputs := { o with arm := .brake, lifts := ⟨if s.seq.levels.leftContact then .off else .raise,
          if s.seq.levels.rightContact then .off else .raise⟩ } } })) ∧
    (∀ side, s.seq.state = .present →
      let u := after (contactInput side)
      let lifts := o.lifts.set side .off
      (s.seq.levels.get (contactInput side.other) = false → exec (.contactArrival side true) s = .next (idleBoundary
        { u with seq := { u.seq with outputs := { o with lifts := lifts } } })) ∧
      (s.seq.levels.get (contactInput side.other) = true → s.seq.levels.platenDown = false →
        exec (.contactArrival side true) s = .next (idleBoundary { u with seq := { u.seq with
          state := .platenDown, motionLeft := s.settings.motionLimits.getD 1 0
          outputs := { o with lifts := lifts, platen := .down } } }))) ∧
    (s.seq.state = .platenDown →
      let u := after .platenDown
      let held := { u.seq with
        state := .held, kind := none, turn := none, motionLeft := 0, outputs := { o with platen := .off } }
      let granted := { held with hold := true, holdGiven := true, waiting := false }
      (∀ cause, s.seq.pendingPause = some cause → bothAtRest s = true →
        exec .platenDownArrival s = .next (idleBoundary (raise .paused [slot cause.num] { u with
          col := { s.col with volState := .paused }
          seq := { held with pendingPause := none, hold := false, waiting := false } }))) ∧
      (s.seq.pendingPause = none → noneInViewPending s = false → captureAllowed s = false →
        exec .platenDownArrival s = .next (idleBoundary { u with seq := granted })) ∧
      (s.seq.pendingPause = none → noneInViewPending s = false → captureAllowed s = true → settingsLaw s →
        (∀ b, s.chan b = .afterReset ∧ (s.port b).state = .idle) →
        ∃ t, exec .platenDownArrival s = .next (idleBoundary t) ∧
          t = { u with seq := granted, chans := t.chans, ports := t.ports } ∧
          ∀ b,
            ((inView s b).any (isPending s) = false → t.chan b = .afterReset ∧ t.port b = s.port b) ∧
            (∀ x, inView s b = some x → isPending s x = true →
              let r := recipeOf s x
              t.chan b = { Channel.afterReset with
                state := .gating, target := some x, shot := 1
                copy := some ⟨(r.shots.getD 0 ⟨[], 0⟩).duties, (r.shots.getD 0 ⟨[], 0⟩).time, r.lo, r.hi, r.clipLimit,
                  r.takeLimit, r.shotCount⟩ } ∧
              t.port b = { s.port b with
                state := .armed
                armed := some ⟨s.col.serial, b, x, classOf s x, 1, r.shotCount, 1, r.lo, r.hi, r.clipLimit, .live, none,
                  false⟩ })) ∧
      (s.seq.pendingPause = none → noneInViewPending s = true → (∀ b, s.chan b = .afterReset) →
        (∀ b leaf f, inView s b = some (.side leaf f) → (leafAt s leaf).foldout = none) → s.seq.pendingStep = none →
        let w : State := raise .openingDone [slot s.seq.p] { u with seq := { granted with waiting := true } }
        (s.seq.mode = .step → exec .platenDownArrival s = .next (idleBoundary w)) ∧
        (s.seq.mode ≠ .step → (∀ leaf f, stateOf s (.side leaf f) ≠ some .pending) →
          exec .platenDownArrival s = .next (idleBoundary (raise .paused [3] (raise .volumeEnd [slot s.seq.p] { w with
            col := { s.col with volState := .paused }
            seq := { granted with hold := false } }))))))

/-- 02 R32 and R25: in CARRY each leaf edge before APEX adds 1 to the count and APEX fixes it. An arrival to which no
rule gives an effect in the state changes its level, a far position's at active is the last to have come besides, and
what always follows an event follows; nothing follows one outside the rest states, or while the volume is not SCANNING.
Platen up at active sets, whatever the state, the moved mark of the header completed in ARMED and of the frame in
reception, of a side's shot alone (06 R126): so `platenRose` reads, which other statements name. An arrival sets its line
too (log 8). -/
def Obligations.EdgesAndReleases : Prop :=
  ∀ s : State, s.start ≠ .held →
    let after (i : Input) (active : Bool) : State := setLevel i active (lineArrives i active s)
    (s.seq.state = .carry →
      exec (.leafEdge true) s = .next (idleBoundary (let u := after .leafEdge true
        { u with seq := { u.seq with edges := if s.seq.edgesFixed then s.seq.edges else s.seq.edges + 1 } })) ∧
      exec (.apexArrival true) s = .next (idleBoundary (let u := after .apex true
        { u with seq := { u.seq with edgesFixed := true } }))) ∧
    exec (.homeArrival false) s = .next (idleBoundary (react (after .home false))) ∧
    exec (.apexArrival false) s = .next (idleBoundary (react (after .apex false))) ∧
    (∀ side, exec (.farPositionArrival side false) s = .next (idleBoundary (react (after (farInput side) false))) ∧
      exec (.contactArrival side false) s = .next (idleBoundary (react (after (contactInput side) false)))) ∧
    exec (.platenUpArrival false) s = .next (idleBoundary (react (after .platenUp false))) ∧
    exec (.leafEdge false) s = .next (idleBoundary (react (after .leafEdge false))) ∧
    exec (.pedalPress false) s = .next (idleBoundary (react (after .pedal false))) ∧
    (s.seq.state ≠ .home → s.seq.manual ≠ some .armHome →
      exec (.homeArrival true) s = .next (idleBoundary (react (after .home true)))) ∧
    (s.seq.state ≠ .carry → exec (.apexArrival true) s = .next (idleBoundary (react (after .apex true))) ∧
      exec (.leafEdge true) s = .next (idleBoundary (react (after .leafEdge true)))) ∧
    (∀ side, ¬(s.seq.state = .pick ∧ side = sourceSide s) → ¬(s.seq.state = .carry ∧ side = destSide s) →
      let u := after (farInput side) true
      exec (.farPositionArrival side true) s =
        .next (idleBoundary (react { u with seq := { u.seq with lastFar := some side } }))) ∧
    (s.seq.state ≠ .present → ∀ side, exec (.contactArrival side true) s =
      .next (idleBoundary (react (after (contactInput side) true)))) ∧
    (s.seq.state ≠ .pick → exec .vacuumGoodArrival s = .next (idleBoundary (react (after .vacuumGood true)))) ∧
    (s.seq.state ≠ .lay → exec .vacuumGoodRelease s = .next (idleBoundary (react (after .vacuumGood false)))) ∧
    (s.seq.state ≠ .platenDown → s.seq.manual ≠ some .platenDown →
      exec .platenDownArrival s = .next (idleBoundary (react (after .platenDown true)))) ∧
    (let ofSide (h : Header) : Bool := match h.target with | .side _ _ => true | .panel _ _ => false
     let watched (p : Port) : Port := match p.state with
       | .idle => p
       | .armed => { p with armed := p.armed.map fun h => if ofSide h && h.fired.isSome then { h with moved := true } else h }
       | .receiving => { p with frame := p.frame.map fun q => if p.armed.any ofSide then { q with moved := true } else q }
     platenRose s = { s with ports := ⟨watched s.ports.left, watched s.ports.right⟩ } ∧
     (s.seq.state ≠ .platenUp → s.seq.manual ≠ some .platenUp →
       exec (.platenUpArrival true) s = .next (idleBoundary (react (platenRose (after .platenUp true)))))) ∧
    (s.seq.state.isRest = false ∨ s.col.volState ≠ .scanning → react s = s)

/-- 02 R41, R43 and R44: every pedal press restarts the dark delay. In HAND_WAIT it turns the vacuum off, makes the owed
turn good, ending the stay, and leads to HOME, or to PRESENT where HOME is active; in FOLD_WAIT with its panel PENDING
it enters PANEL_HELD with the hold granted, and where capture is allowed the panel is taken up at once (05 R96), as is
said of PANEL_HELD below. In PANEL_HELD it withdraws the hold: a shot in flight runs on, a header that
waits for its gate is taken back, and with the channels at rest and the panel still PENDING FOLD_WAIT follows with the
stack as it was, or the pending pause is taken. In FOLD_WAIT at ADVANCE_NEXT the entry advances: to the next panel, or
popped to the entry beneath, or, when the pop empties the stack, to PRESENT of a RESTORE; a settled panel is done and
passed over so by the same press, unless its nested fold-out still has a PENDING panel, which is then pushed (R43). Each
of these clears the preview cut of the stack's bank. In HELD, and while the volume is not SCANNING, the sequencer ignores
the press. PANEL_HELD stands while its channel works, and under the hold while capture is not allowed, even where its
panel has settled (log 15); a PENDING panel offered under the hold is taken up (05 R96, R98); a panel that has settled is
done, its entry at ADVANCE_NEXT and a nested fold-out with a PENDING panel pushed, and FOLD_WAIT follows (R44); a pending
pause comes before that test (log 15). An arrival sets its line too (log 8). -/
def Obligations.ThePedalAndTheHeldPanel : Prop :=
  ∀ s : State, s.start ≠ .held →
    let u := restartDark (setLevel .pedal true (lineArrives .pedal true s))
    (s.seq.state.isRest = false ∨ s.col.volState ≠ .scanning → exec (.pedalPress true) s = .next (idleBoundary u)) ∧
    (s.seq.state = .held → exec (.pedalPress true) s = .next (idleBoundary (react u))) ∧
    (s.seq.state = .handWait → s.col.volState = .scanning →
      let moved := { u.seq with
        owed := none, kind := some .restore
        p := match s.seq.owed with
          | some .forward => presentAfter s s.seq.p
          | some .backward => (presentBefore s s.seq.p).getD s.seq.p
          | none => s.seq.p
        foldMark := if s.seq.owed.isSome then both false else s.seq.foldMark
        settledHere := if s.seq.owed.isSome then both false else s.seq.settledHere }
      (s.seq.levels.home = false → exec (.pedalPress true) s = .next (idleBoundary (reseat { moved with
        state := .home, motionLeft := s.settings.motionLimits.getD 6 0
        outputs := { s.seq.outputs with vacuum := false, arm := towardSpine s } } u))) ∧
      (s.seq.levels.home = true → (s.seq.levels.leftContact && s.seq.levels.rightContact) = false →
        exec (.pedalPress true) s = .next (idleBoundary (reseat { moved with
          state := .present, motionLeft := s.settings.motionLimits.getD 0 0
          outputs := { s.seq.outputs with
            vacuum := false
            lifts := ⟨if s.seq.levels.leftContact then .off else .raise,
                      if s.seq.levels.rightContact then .off else .raise⟩ } } u)))) ∧
    (∀ e rest b, s.seq.stack = e :: rest → s.seq.stackBank = some b → s.col.volState = .scanning →
      s.seq.pendingPause = none → isPending s (.panel e.foldout e.panel) = true →
      (s.seq.state = .foldWait → e.phase = .presentNext →
        let presented : State := { u with seq := { u.seq with
          state := .panelHeld, hold := true, holdGiven := true, waiting := false } }
        exec (.pedalPress true) s = .next (idleBoundary (react presented)) ∧
        (captureAllowed s = false → react presented = presented)) ∧
      (s.seq.state = .panelHeld → bothAtRest s = true →
        exec (.pedalPress true) s = .next (idleBoundary { u with
          chans := both .afterReset
          seq := { u.seq with
            state := .foldWait, hold := false, holdGiven := false, waiting := false, kind := none, turn := none
            motionLeft := 0 } }))) ∧
    (∀ e rest b, s.seq.stack = e :: rest → s.seq.stackBank = some b → s.col.volState = .scanning →
      s.seq.state = .panelHeld →
      let taken (c : Channel) : Channel := { c with state := .idle, gate := none, kept := none, timeout := none }
      let back : State := { u with
        ports := s.ports.set b { s.port b with state := .idle, armed := none } }
      let paused (cause : PauseCause) (t : State) : State := raise .paused [slot cause.num] { t with
        col := { s.col with volState := .paused }
        seq := { u.seq with pendingPause := none, hold := false, waiting := false } }
      ((s.chan b).state = .firing ∨ (s.chan b).state = .awaiting →
        (s.chan b.other).state ≠ .arming → (s.chan b.other).state ≠ .gating →
        exec (.pedalPress true) s = .next (idleBoundary { u with seq := { u.seq with hold := false, waiting := false } })) ∧
      ((s.chan b).state = .gating → (s.port b).state = .armed → (s.chan b.other).atRest = true →
        (s.seq.pendingPause = none → isPending s (.panel e.foldout e.panel) = true →
          exec (.pedalPress true) s = .next (idleBoundary { back with
            chans := both .afterReset
            seq := { u.seq with
              state := .foldWait, hold := false, holdGiven := false, waiting := false, kind := none, turn := none
              motionLeft := 0 } })) ∧
        (∀ cause, s.seq.pendingPause = some cause → exec (.pedalPress true) s = .next (idleBoundary (paused cause
          { back with chans := s.chans.set b (taken (s.chan b)) })))) ∧
      (∀ cause, s.seq.pendingPause = some cause → bothAtRest s = true →
        exec (.pedalPress true) s = .next (idleBoundary (paused cause u)))) ∧
    (∀ e rest b, s.seq.stack = e :: rest → s.seq.stackBank = some b → s.col.volState = .scanning →
      s.seq.pendingPause = none → s.seq.state = .foldWait →
      let panels := (panelsOf s e.foldout).getD []
      let nested : Option Nat := (panels[e.panel - 1]?).bind (·.nested)
      let owed : Prop := ∃ g, nested = some g ∧ ∃ x ∈ panelsUnder s (coveredFoldouts s g), stateOf s x = some .pending
      let settled := e.phase = .presentNext ∧ isPending s (.panel e.foldout e.panel) = false
      let lamps := { u.lamps with cut := s.lamps.cut.set b false }
      let stack (es : List StackEntry) : State := { u with lamps := lamps, seq := { u.seq with stack := es } }
      (e.phase = .advanceNext ∨ (settled ∧ ¬owed) →
        (e.panel < panels.length → exec (.pedalPress true) s =
          .next (idleBoundary (stack (⟨e.foldout, e.panel + 1, .presentNext⟩ :: rest)))) ∧
        (panels.length ≤ e.panel → rest ≠ [] → exec (.pedalPress true) s = .next (idleBoundary (stack rest))) ∧
        (panels.length ≤ e.panel → rest = [] → (s.seq.levels.leftContact && s.seq.levels.rightContact) = false →
          exec (.pedalPress true) s = .next (idleBoundary (reseat { u.seq with
            state := .present, kind := some .restore, stack := [], stackBank := none
            motionLeft := s.settings.motionLimits.getD 0 0
            outputs := { s.seq.outputs with
              lifts := ⟨if s.seq.levels.leftContact then .off else .raise,
                        if s.seq.levels.rightContact then .off else .raise⟩ } } { u with lamps := lamps })))) ∧
      (∀ g, settled → owed → nested = some g → exec (.pedalPress true) s = .next (idleBoundary
        (stack (⟨g, 1, .presentNext⟩ :: { e with phase := .advanceNext } :: rest))))) ∧
    (∀ e rest b, s.seq.stack = e :: rest → s.seq.stackBank = some b → s.col.volState = .scanning →
      s.seq.state = .panelHeld →
      let panel : Target := .panel e.foldout e.panel
      let nested : Option Nat := (((panelsOf s e.foldout).getD [])[e.panel - 1]?).bind (·.nested)
      let owed (g : Nat) : Prop :=
        nested = some g ∧ ∃ x ∈ panelsUnder s (coveredFoldouts s g), stateOf s x = some .pending
      let still : Prop := ∀ c, (s.chan c).state = .done ∨ ((s.chan c).state = .idle ∧ (s.chan c).target = none)
      let leaves (es : List StackEntry) : State := { s with
        chans := both .afterReset
        seq := { s.seq with
          state := .foldWait, stack := es, hold := false, holdGiven := false, waiting := false, kind := none
          turn := none, motionLeft := 0 } }
      (s.seq.pendingPause = none →
        (still → s.seq.hold = true → captureAllowed s = false → react s = s) ∧
        ((s.chan b).state = .firing ∨ (s.chan b).state = .awaiting →
          (s.chan b.other).state ≠ .idle ∨ (s.chan b.other).target = none → react s = s) ∧
        (bothAtRest s = true → s.seq.hold = false → isPending s panel = true → react s = leaves s.seq.stack) ∧
        (still → captureAllowed s = true ∨ s.seq.hold = false → isPending s panel = false →
          ((∀ g, ¬owed g) → react s = leaves ({ e with phase := .advanceNext } :: rest)) ∧
          ∀ g, owed g → react s = { leaves (⟨g, 1, .presentNext⟩ :: { e with phase := .advanceNext } :: rest) with
            lamps := { s.lamps with cut := s.lamps.cut.set b false } }) ∧
        (still → captureAllowed s = true → s.seq.hold = true → isPending s panel = true → (s.port b).state = .idle →
          let r := recipeOf s panel
          1 ≤ r.shotCount → react s = { s with
            chans := s.chans.set b { Channel.afterReset with
              state := .gating, target := some panel, shot := 1
              copy := some ⟨(r.shots.getD 0 ⟨[], 0⟩).duties, (r.shots.getD 0 ⟨[], 0⟩).time, r.lo, r.hi, r.clipLimit,
                r.takeLimit, r.shotCount⟩ }
            ports := s.ports.set b { s.port b with
              state := .armed
              armed := some ⟨s.col.serial, b, panel, classOf s panel, 1, r.shotCount, 1, r.lo, r.hi, r.clipLimit, .live,
                none, false⟩ } })) ∧
      (∀ cause, s.seq.pendingPause = some cause → still →
        captureAllowed s = false ∨ s.seq.hold = false ∨ isPending s panel = false →
        react s = raise .paused [slot cause.num] { s with
          col := { s.col with volState := .paused }
          seq := { s.seq with pendingPause := none, hold := false, waiting := false } }))

/-- 02 R36: the platen lifted off a held opening withdraws the hold at once: shots in flight run on, be one channel at
work or both, and a header that waits for its gate is taken back (05 R109). With both channels at rest the sequencer
brakes every drive and goes to FAULT, SLIPPED, and the volume is PAUSED. While the volume is PAUSED it only sets the
disturbed flag. Outside HELD the sequencer does nothing at it; what always follows an event (`react`) follows, which is
nothing but in PANEL_HELD or with a pause pending. An arrival sets its line too (log 8). -/
def Obligations.ThePlatenLeavesTheOpening : Prop :=
  ∀ s : State, s.start ≠ .held →
    let u := setLevel .platenDown false (lineArrives .platenDown false s)
    (s.seq.state = .held → s.col.volState = .paused →
      exec .platenDownRelease s = .next (idleBoundary { u with seq := { u.seq with disturbed := true } })) ∧
    (s.seq.state = .held → s.col.volState = .scanning →
      (∀ b, (s.chan b).state ≠ .arming ∧ (s.chan b).state ≠ .gating) → bothAtRest s = false →
      exec .platenDownRelease s = .next (idleBoundary { u with seq := { u.seq with hold := false, waiting := false } })) ∧
    (s.seq.state = .held → s.col.volState = .scanning →
      let slipped (t : State) : State := raise .paused [2] (raise .motionFault [1, 3, slot s.seq.p] { t with
        col := { s.col with volState := .paused }
        chans := both .afterReset
        seq := { u.seq with
          state := .fault, pendingPause := none, hold := false, holdGiven := false, waiting := false
          fault := some ⟨.platenDown, .slipped, none, none, .none⟩
          outputs := { s.seq.outputs with arm := .brake, puff := false, platen := .off, lifts := both .off } } })
      (bothAtRest s = true → s.seq.kind = none → exec .platenDownRelease s = .next (idleBoundary (slipped u))) ∧
      (∀ b, (s.chan b).state = .gating → (s.port b).state = .armed →
        let back : State := { u with ports := s.ports.set b { s.port b with state := .idle, armed := none } }
        ((s.chan b.other).atRest = true → s.seq.kind = none →
          exec .platenDownRelease s = .next (idleBoundary (slipped back))) ∧
        ((s.chan b.other).state = .firing ∨ (s.chan b.other).state = .awaiting →
          exec .platenDownRelease s = .next (idleBoundary { back with
            chans := s.chans.set b { s.chan b with state := .idle, gate := none, kept := none, timeout := none }
            seq := { u.seq with hold := false, waiting := false } })))) ∧
    (s.seq.state ≠ .held → exec .platenDownRelease s = .next (idleBoundary (react u))) ∧
    (s.seq.state ≠ .held → s.seq.state ≠ .panelHeld → s.seq.pendingPause = none ∨ s.seq.state.isRest = false →
      exec .platenDownRelease s = .next (idleBoundary u))

/-- 02 R30, R33 and R51: a motion that outlasts its limit goes to FAULT with every drive braked, MOTION_FAULT and PAUSED,
the owed turn that of a turn that has not yet moved p (the turned leaf and the owed turn by kind and motion: log 17,
from R26 and R50); LAY after a double carry goes there as DOUBLE_TURN, with both MOTION_FAULT and DOUBLE_TURN raised
(R34); PICK is tried again while retries are left, and else is MISPICK.
A manual motion's drive is stopped, with MOTION_FAULT but for LIFTS DOWN. With no motion in flight nothing happens
(log 9). -/
def Obligations.MotionsRunOut : Prop :=
  ∀ s : State, s.start ≠ .held →
    let o := s.seq.outputs
    let ended (o : Outputs) : State := { s with seq := { s.seq with manual := none, manualLeft := 0, outputs := o } }
    let fault (m : Motion) (cause : FaultCause) (s' : State) : State :=
      let turn := if s.seq.kind = some .machineTurn ∨ s.seq.kind = some .handRaise then s.seq.turn else none
      raise .paused [2] (raise .motionFault [slot m.num, slot cause.num, slot s.seq.p] { s' with
        col := { s.col with volState := .paused }
        seq := { s'.seq with
          state := .fault, pendingPause := none, hold := false, waiting := false
          fault := some ⟨m, cause, turn.map (·.leaf),
            if m = .home ∨ m = .present ∨ m = .platenDown then none else turn.map (·.dir), .none⟩
          outputs := { s'.seq.outputs with arm := .brake, puff := false, platen := .off, lifts := both .off } } })
    (s.seq.state.motion = none → exec .motionExpiry s = .next (idleBoundary s)) ∧
    (∀ m, s.seq.state.motion = some m → m ≠ .pick → (m = .lay → s.seq.double = false) → s.col.volState = .scanning →
      bothAtRest s = true → exec .motionExpiry s = .next (idleBoundary (fault m .timeout s))) ∧
    (∀ turn, s.seq.state = .lay → s.seq.double = true → s.seq.kind = some .machineTurn → s.seq.turn = some turn →
      s.col.volState = .scanning → bothAtRest s = true →
      exec .motionExpiry s = .next (idleBoundary (raise .paused [2] (raise .doubleTurn [slot turn.leaf, slot s.seq.edges]
        (raise .motionFault [5, 0, slot s.seq.p] { s with
          col := { s.col with volState := .paused }
          seq := { s.seq with
            state := .fault, pendingPause := none, hold := false, waiting := false
            fault := some ⟨.lay, .doubleTurn, some turn.leaf, some turn.dir, .none⟩
            outputs := { o with arm := .brake, puff := false, platen := .off, lifts := both .off } } }))))) ∧
    (s.seq.state = .pick → s.col.volState = .scanning → bothAtRest s = true →
      (s.settings.pickRetries ≤ s.seq.retries → exec .motionExpiry s = .next (idleBoundary (fault .pick .mispick
        { s with seq := { s.seq with outputs := { o with vacuum := false } } }))) ∧
      (s.seq.retries < s.settings.pickRetries → s.seq.levels.get (farInput (sourceSide s)) = false →
        s.seq.levels.vacuumGood = false →
        exec .motionExpiry s = .next (idleBoundary { s with seq := { s.seq with
          retries := s.seq.retries + 1, motionLeft := s.settings.motionLimits.getD 3 0
          outputs := { o with vacuum := false, puff := false, arm := armToward (sourceSide s) } } }))) ∧
    ((s.seq.manual = none → exec .manualMotionExpiry s = .next (idleBoundary s)) ∧
      (s.seq.manual = some .platenUp → exec .manualMotionExpiry s =
        .next (idleBoundary (raise .motionFault [7, 0, slot s.seq.p] (ended { o with platen := .off })))) ∧
      (s.seq.manual = some .platenDown → exec .manualMotionExpiry s =
        .next (idleBoundary (raise .motionFault [8, 0, slot s.seq.p] (ended { o with platen := .off })))) ∧
      (s.seq.manual = some .armHome → exec .manualMotionExpiry s =
        .next (idleBoundary (raise .motionFault [9, 0, slot s.seq.p] (ended { o with arm := .brake })))) ∧
      (s.seq.manual = some .liftsDown → exec .manualMotionExpiry s = .next (idleBoundary (ended { o with lifts := both .off }))))

/-! ### Light: gates, strobes, the supply and the dose tick (03, 04, 05) -/

/-- 04 R75 and R76: the effective exposure is the time raised to whole scans of 600 µs; the shot dose is E × t' / 1000,
formed exactly and rounded up once, at most 24,752,650; a bank with all six effective duties 0, or with every channel dark, has E = 0 and
D = 0. The strobe runs t' / 600 scans. -/
def Obligations.ShotDoseArithmetic : Prop :=
  (∀ t, effectiveExposure t % 600 = 0 ∧ t ≤ effectiveExposure t ∧ effectiveExposure t < t + 600) ∧
  (∀ e t, e * t ≤ 1000 * shotDose e t ∧ 1000 * shotDose e t < e * t + 1000) ∧
  shotDose 491124 50400 = 24752650 ∧ (∀ e t, e ≤ 491124 → t ≤ 50400 → shotDose e t ≤ 24752650) ∧
  ∀ (s : State) (b : Side) (c : ShotCopy),
    let g := gateFigures s b c
    g.exposure = effectiveExposure c.time ∧ g.dose = shotDose g.illuminance g.exposure ∧
    ((∀ d ∈ g.duties, d = 0) ∨ (∀ i, i < 6 → channelReady s (firstChannel b + i) = false) →
      g.illuminance = 0 ∧ g.dose = 0) ∧
    (startStrobe b g s).lamps.strobe.get b = some ⟨g.duties, g.exposure / 600⟩

/-- 04 R81 to R83, 05 R99 to R101, 06 R120 and 03 R60: at a channel's gate the dose meter judges D against both limits.
A shot that fits is charged to the target and to the volume, counted as a take, and fired: the header completed where the
port holds one, armed or in reception, the strobe started and the trigger raised. A port whose header a frame has already
consumed stands as it was (05 R108). With the supply not GOOD the strobe is refused and the shot CUT: charged and counted
all the same, its header ABANDONED, and owed again while takes are left, and else its target is REJECTED with SUPPLY_CUT.
One that does not fit is WITHHELD, its header taken back, and DOSE_WITHHELD raised with the limit that refused it. A
channel that asks for no gate is not judged. -/
def Obligations.TheGateFiresOrWithholds : Prop :=
  ∀ (b : Side) (s : State), s.start ≠ .held →
    ((s.chan b).state ≠ .gating → exec (.gateRequest b) s = .next (idleBoundary (react s))) ∧
    (∀ x c q, (s.chan b).state = .gating → (s.chan b).target = some x → (s.chan b).copy = some c →
      fieldsOf s x = some q →
      let g := gateFigures s b c
      let side := decide ((doseLimits s).side < q.dose + g.dose)
      let vol := decide ((doseLimits s).volume < s.dose.volDose + g.dose)
      ((side || vol) = true → exec (.gateRequest b) s = .next (idleBoundary (react (raise .doseWithheld
          (targetSlots x ++ [slot (sideNum b), slot g.dose, if side && vol then 2 else if side then 0 else 1])
          ((settle x .withheld (s.setPort b (s.port b).takeBack)).setChan b
            { s.chan b with state := .done, gate := none, kept := none, timeout := none }))))) ∧
      ((side || vol) = false →
        let takes := if q.takes < 255 then q.takes + 1 else q.takes
        let completed (h : Header) : Header :=
          match (s.port b).state with
          | .idle => h
          | .armed => { h with fired := some (g, takes), moved := h.watched && s.seq.levels.platenUp }
          | .receiving => { h with fired := some (g, takes) }
        let ended (st : ChanState) : Channel := { s.chan b with
          state := st, takes := (s.chan b).takes + 1, trigger := false, gate := none, kept := none, timeout := none }
        ∃ t, t = { s with
            col := { s.col with leaves := t.col.leaves, foldouts := t.col.foldouts }
            dose := { s.dose with volDose := s.dose.volDose + g.dose } } ∧
          (∀ y, fieldsOf t y = if y = x then some { q with dose := q.dose + g.dose, takes := takes } else fieldsOf s y) ∧
          (s.lamps.supply = .good → exec (.gateRequest b) s = .next (idleBoundary (react { t with
            chans := s.chans.set b { s.chan b with
              state := .firing, takes := (s.chan b).takes + 1, gate := some g, trigger := true }
            ports := s.ports.set b { s.port b with armed := (s.port b).armed.map completed }
            lamps := { s.lamps with
              strobe := s.lamps.strobe.set b (some ⟨g.duties, g.exposure / 600⟩)
              scanSlot := s.lamps.scanSlot.set b 0
              slotDuty := s.lamps.slotDuty.set b
                (min (calOf s (firstChannel b)).preview (calOf s (firstChannel b)).cap) } }))) ∧
          (s.lamps.supply ≠ .good →
            let cut : State := { t with ports := s.ports.set b { s.port b with
              armed := (s.port b).armed.map fun h => { completed h with status := .abandoned } } }
            ((s.chan b).takes + 1 < c.takeLimit →
              exec (.gateRequest b) s = .next (idleBoundary (react { cut with chans := s.chans.set b (ended .idle) }))) ∧
            (c.takeLimit ≤ (s.chan b).takes + 1 → exec (.gateRequest b) s = .next (idleBoundary (react
              (raise .sideRejected (targetSlots x ++ [slot (s.chan b).shot, 10])
                ((settle x .rejected cut).setChan b (ended .done)))))))))

/-- 05 R101, R104 and R106, 03 R61: a strobe that runs to its end lowers the trigger and leaves the channel AWAITING its
verdict with the frame timeout running; the bank's scan stands at its slot, whenever the command comes (log 2). The timeout's end expires the header and raises FRAME_MISSING; the shot is owed
again while takes are left, and else the target is REJECTED and SIDE_REJECTED raised. -/
def Obligations.ShotsEndOrGoMissing : Prop :=
  ∀ (b : Side) (s : State), s.start ≠ .held →
    let c := s.chan b
    (s.lamps.strobe.get b = none → exec (.strobeEnd b) s = .next (idleBoundary (react s))) ∧
    (∀ z, s.lamps.strobe.get b = some z → c.state = .firing → c.kept = none →
      exec (.strobeEnd b) s = .next (idleBoundary (react { s with
        lamps := { s.lamps with strobe := s.lamps.strobe.set b none }
        chans := s.chans.set b { c with
          state := .awaiting, trigger := false, timeout := some s.settings.frameTimeout } }))) ∧
    (c.state ≠ .awaiting ∨ c.timeout = none → exec (.frameTimeout b) s = .next (idleBoundary (react s))) ∧
    (∀ n x k, c.state = .awaiting → c.timeout = some n → c.target = some x → c.copy = some k →
      let u := raise .frameMissing ([slot (sideNum b)] ++ targetSlots x ++ [slot c.shot]) (s.setPort b { s.port b with
        armed := (s.port b).armed.map fun h => if h.status = .abandoned then h else { h with status := .expired } })
      let ended (st : ChanState) : Channel := { c with state := st, gate := none, kept := none, timeout := none }
      (c.takes < k.takeLimit → exec (.frameTimeout b) s = .next (idleBoundary (react (u.setChan b (ended .idle))))) ∧
      (k.takeLimit ≤ c.takes → exec (.frameTimeout b) s = .next (idleBoundary (react (raise .sideRejected
        (targetSlots x ++ [slot c.shot, 9]) ((settle x .rejected u).setChan b (ended .done)))))))

/-- 05 R102 to R108: what a channel does with its port's verdict. Awaiting one, GOOD stamps the target and leads to the
next shot, or after the last to CAPTURED, the DONE channel's shot index one past that shot (the model's reading of R103
against R95's 1 to 3, log 40); a rejection leaves the shot owed again while takes are left, and else makes
the target REJECTED with SIDE_REJECTED. In FIRING the verdict is kept; LATE, ABANDONED and any other state take none. -/
def Obligations.VerdictsAtTheChannel : Prop :=
  ∀ (b : Side) (v : Verdict) (s : State),
    let c := s.chan b
    (v = .late ∨ v = .abandoned ∨ (c.state ≠ .awaiting ∧ c.state ≠ .firing) → takeVerdict b v s = s) ∧
    (v ≠ .late → v ≠ .abandoned → c.state = .firing → takeVerdict b v s = s.setChan b { c with kept := some v }) ∧
    (∀ x k, c.state = .awaiting → c.target = some x → c.copy = some k →
      let ended (st : ChanState) : Channel := { c with state := st, gate := none, kept := none, timeout := none }
      let stamped := modifyFields x (fun q => { q with
        firstTake := some (q.firstTake.getD s.tally.clock), lastTake := some s.tally.clock }) s
      (v = .good → c.shot < (recipeOf s x).shotCount →
        takeVerdict b v s = stamped.setChan b { ended .idle with shot := c.shot + 1, takes := 0 }) ∧
      (v = .good → (recipeOf s x).shotCount ≤ c.shot →
        takeVerdict b v s = (settle x .captured stamped).setChan b { ended .done with shot := c.shot + 1, takes := 0 }) ∧
      (v ≠ .good → v ≠ .late → v ≠ .abandoned → c.takes < k.takeLimit → takeVerdict b v s = s.setChan b (ended .idle)) ∧
      (v ≠ .good → v ≠ .late → v ≠ .abandoned → k.takeLimit ≤ c.takes →
        takeVerdict b v s = raise .sideRejected (targetSlots x ++ [slot c.shot, slot v.num])
          ((settle x .rejected s).setChan b (ended .done))))

/-- 03 R63 and 07 R140: the dark delay's end sets the expired mark, and a stopped timer never ends (log 9); the end of a full
second of a running volume clock adds 1, at most to 2^32 - 1, and a stopped clock keeps its value. -/
def Obligations.DarkDelayAndVolumeClockRunOut : Prop :=
  ∀ s : State, s.start ≠ .held →
    exec .darkDelayExpiry s = .next (
      if s.lamps.darkLeft = none then s
      else { s with lamps := { s.lamps with darkLeft := some 0, darkExpired := true } }) ∧
    exec .volumeClockSecond s = .next (
      if s.tally.clockRuns then { s with tally := { s.tally with
        clock := if s.tally.clock < 2 ^ 32 - 1 then s.tally.clock + 1 else s.tally.clock, clockMs := 0 } }
      else s)

/-- 03 R65 to R67 and 05 R101: a good sample leads from LOW to RECOVERING, and 500 of them unbroken, or the end of that
time, to GOOD; a bad one leads from GOOD or RECOVERING to LOW and raises LAMP_SUPPLY with the banks cut, L 1, R 2 and
both 3 (log 26). A strobe that runs is cut: its trigger lowered, its header ABANDONED and its shot owed again while takes
are left, and else its target REJECTED with SUPPLY_CUT; the scans stand at their slots (log 2). The recovery time is 0 in
LOW and GOOD (log 46). The commands set the supply's line too (log 8). -/
def Obligations.TheLampSupply : Prop :=
  ∀ s : State, s.start ≠ .held →
    let pin (good : Bool) : State := { s with pins := { s.pins with supplyGood := good } }
    let at' (good : Bool) (q : Supply) (ms : Nat) : State :=
      { pin good with lamps := { s.lamps with supply := q, recovery := ms } }
    (s.lamps.supply = .low →
      exec .supplyGoodSample s = .next (idleBoundary (at' true .recovering 0)) ∧ exec .supplyRecovered s = .next (idleBoundary (pin true)) ∧
      exec .supplyLoss s = .next (idleBoundary (pin false))) ∧
    (s.lamps.supply = .good →
      exec .supplyGoodSample s = .next (idleBoundary (pin true)) ∧ exec .supplyRecovered s = .next (idleBoundary (pin true))) ∧
    (s.lamps.supply = .recovering →
      exec .supplyRecovered s = .next (idleBoundary (react (at' true .good 0))) ∧
      exec .supplyGoodSample s = .next (idleBoundary (if s.lamps.recovery < 499 then at' true .recovering (s.lamps.recovery + 1)
        else react (at' true .good 0)))) ∧
    (s.lamps.supply ≠ .low →
      (s.lamps.strobe.left = none → s.lamps.strobe.right = none →
        exec .supplyLoss s = .next (idleBoundary (react (raise .lampSupply [0] (at' false .low 0))))) ∧
      (∀ b z x k, s.lamps.strobe.get b = some z → s.lamps.strobe.get b.other = none → (s.chan b).state = .firing →
        (s.chan b).target = some x → (s.chan b).copy = some k →
        let banks : Slot := if b = .left then 1 else 2
        let ended (st : ChanState) : Channel := { s.chan b with
          state := st, trigger := false, gate := none, kept := none, timeout := none }
        let cut : State := { at' false .low 0 with
          lamps := { s.lamps with supply := .low, recovery := 0, strobe := both none }
          ports := s.ports.set b { s.port b with
            armed := (s.port b).armed.map ({ · with status := .abandoned }) } }
        ((s.chan b).takes < k.takeLimit → exec .supplyLoss s = .next (idleBoundary (react (raise .lampSupply [banks]
          { cut with chans := s.chans.set b (ended .idle) })))) ∧
        (k.takeLimit ≤ (s.chan b).takes → exec .supplyLoss s = .next (idleBoundary (react (raise .lampSupply [banks]
          (raise .sideRejected (targetSlots x ++ [slot (s.chan b).shot, 10])
            ((settle x .rejected cut).setChan b (ended .done)))))))) ∧
      ((∀ b, s.lamps.strobe.get b ≠ none ∧ (s.chan b).state = .firing ∧ ∃ x k, (s.chan b).target = some x ∧
          (s.chan b).copy = some k ∧ (s.chan b).takes < k.takeLimit) →
        let ended (c : Channel) : Channel := { c with
          state := .idle, trigger := false, gate := none, kept := none, timeout := none }
        let abandoned (p : Port) : Port := { p with armed := p.armed.map ({ · with status := .abandoned }) }
        exec .supplyLoss s = .next (idleBoundary (react (raise .lampSupply [3] { at' false .low 0 with
          lamps := { s.lamps with supply := .low, recovery := 0, strobe := both none }
          chans := ⟨ended s.chans.left, ended s.chans.right⟩
          ports := ⟨abandoned s.ports.left, abandoned s.ports.right⟩ })))))

/-- 04 R84 to R87: the charge of the preview of a bank at PREVIEW over a target goes to the target and to the volume
while it fits in the room both limits leave; else the room is charged, the bank's preview cut and PREVIEW_CUT raised. With
both banks lit the operand's bank is charged first and the other on what that charge leaves of the volume (log 32). A tick
over dark banks charges nothing. -/
def Obligations.TheDoseTick : Prop :=
  ∀ (b first : Side) (s : State), s.start ≠ .held →
    let lit (b : Side) : Bool := bankLevel s b == .preview && (inView s b).isSome
    let told (b : Side) (x : Target) (side vol : Nat) (u : State) : State :=
      if previewCharge s b ≤ min side vol then u
      else raise .previewCut ([slot (sideNum b)] ++ targetSlots x ++
        [slot (min side vol), if side < vol then 0 else if vol < side then 1 else 2]) u
    let cutBy (b : Side) (room : Nat) (cut : Both Bool) : Both Bool :=
      if previewCharge s b ≤ room then cut else cut.set b true
    (lit .left = false → lit .right = false →
      exec (.doseTick first) s = .next (idleBoundary { s with dose := { s.dose with tickMs := 0 } })) ∧
    (∀ x q, lit b = true → lit b.other = false → inView s b = some x → fieldsOf s x = some q →
      let side := (doseLimits s).side - q.dose
      let vol := (doseLimits s).volume - s.dose.volDose
      let charged := min (previewCharge s b) (min side vol)
      ∃ t, exec (.doseTick first) s = .next (idleBoundary (told b x side vol t)) ∧
        t = { s with
          col := { s.col with leaves := t.col.leaves, foldouts := t.col.foldouts }
          dose := { s.dose with volDose := s.dose.volDose + charged, tickMs := 0 }
          lamps := { s.lamps with cut := cutBy b (min side vol) s.lamps.cut } } ∧
        ∀ y, fieldsOf t y = if y = x then some { q with dose := q.dose + charged } else fieldsOf s y) ∧
    (∀ x q y r, lit first = true → lit first.other = true → inView s first = some x → fieldsOf s x = some q →
      inView s first.other = some y → fieldsOf s y = some r →
      let side := (doseLimits s).side - q.dose
      let vol := (doseLimits s).volume - s.dose.volDose
      let charged := min (previewCharge s first) (min side vol)
      let side' := (doseLimits s).side - r.dose
      let vol' := (doseLimits s).volume - (s.dose.volDose + charged)
      let charged' := min (previewCharge s first.other) (min side' vol')
      ∃ t, exec (.doseTick first) s =
          .next (idleBoundary (told first.other y side' vol' (told first x side vol t))) ∧
        t = { s with
          col := { s.col with leaves := t.col.leaves, foldouts := t.col.foldouts }
          dose := { s.dose with volDose := s.dose.volDose + charged + charged', tickMs := 0 }
          lamps := { s.lamps with
            cut := cutBy first.other (min side' vol') (cutBy first (min side vol) s.lamps.cut) } } ∧
        ∀ z, fieldsOf t z = if z = x then some { q with dose := q.dose + charged }
          else if z = y then some { r with dose := r.dose + charged' } else fieldsOf s z)

/-! ### Imager ports (06) -/

/-- 06 R121, R122 and R127: a frame start at an ARMED port begins a frame against the header and queues its header
burst, where two marker places are free, and else is refused, counted and raised as LINE_OVERRUN, its detail with 0 for the frame
number and the cause in the fourth slot (log 47); with no header it is unsolicited and counted. In RECEIVING it ends the frame first, its trailer queued, and is then taken afresh: with no
waiting header it is unsolicited (log 19: the start is taken before the channel acts on the ended frame's verdict); a
waiting header becomes the armed header, its channel leaves ARMING for GATING, where the verdict is dropped (05 R108),
and the start is taken against that header. -/
def Obligations.FrameStarts : Prop :=
  ∀ (b : Side) (s : State), s.start ≠ .held →
    let p := s.port b
    let count (n : Nat) : Nat := if n < 65535 then n + 1 else n
    let number := (p.frameNo + 1) % 65536
    let g := s.settings.geometry.get b
    let fresh (h : Header) : Frame := {
      number := number, geometry := g, arrived := 0, dropped := 0, bad := 0, excess := 0, sum := 0, n := 0,
      clips := 0, crc := 0
      moved := h.watched && (if h.fired.isSome then h.moved else s.seq.levels.platenUp)
      stallLimit := s.settings.frameTimeout, stallLeft := s.settings.frameTimeout }
    (p.state ≠ .receiving → p.armed = none →
      exec (.frameStart b) s = .next (idleBoundary (react (s.setPort b { p with unsolicited := count p.unsolicited })))) ∧
    (∀ h, p.state = .armed → p.armed = some h →
      (2 < markersQueued p → exec (.frameStart b) s = .next (idleBoundary (react (raise .lineOverrun [slot (sideNum b), 0, 0, 1]
        (s.setPort b { p with refused := count p.refused }))))) ∧
      (markersQueued p ≤ 2 → exec (.frameStart b) s = .next (idleBoundary (react (s.setPort b { p with
        state := .receiving
        frameNo := number
        queue := p.queue ++ [.header b number g h]
        frame := some (fresh h) }))))) ∧
    (∀ h f, p.state = .receiving → p.armed = some h → p.frame = some f →
      let trailer : Burst := .trailer (trailerOf b h f .nextStart)
      (p.waiting = none →
        exec (.frameStart b) s = .next (idleBoundary (react (takeVerdict b (verdictOf h f) (s.setPort b { p with
          state := .idle, armed := none, frame := none, unsolicited := count p.unsolicited
          queue := p.queue ++ [trailer] }))))) ∧
      (∀ w, p.waiting = some w → (s.chan b).state = .arming →
        let gating : State := s.setChan b { s.chan b with state := .gating }
        (1 < markersQueued p → exec (.frameStart b) s = .next (idleBoundary (react
          (raise .lineOverrun [slot (sideNum b), 0, 0, 1] (gating.setPort b { p with
            state := .armed, armed := some w, waiting := none, frame := none, refused := count p.refused
            queue := p.queue ++ [trailer] }))))) ∧
        (markersQueued p ≤ 1 → exec (.frameStart b) s = .next (idleBoundary (react (gating.setPort b { p with
          state := .receiving, armed := some w, waiting := none, frameNo := number, frame := some (fresh w)
          queue := p.queue ++ [trailer, .header b number g w] }))))))

/-- 06 R123 to R125: a line of a frame counts as arrived and restarts the stall timer. Beyond the height it is excess;
with 64 lines queued it is dropped, the first time with LINE_OVERRUN; else its first W pixels are queued and taken into
the CRC, and it is measured in the window when it has W pixels, and bad otherwise. The frame boundary of an idle
transmitter comes after the burst has joined its queue (log 10). -/
def Obligations.LinesOfAFrame : Prop :=
  ∀ (b : Side) (pixels : List Pixel) (s : State), s.start ≠ .held →
    let p := s.port b
    (p.frame = none → exec (.line b pixels) s = .next (idleBoundary s)) ∧
    (∀ f, p.frame = some f →
      let g := f.geometry
      let f' := { f with arrived := f.arrived + 1, stallLeft := f.stallLimit }
      (g.height ≤ f.arrived →
        exec (.line b pixels) s = .next (idleBoundary (s.setPort b { p with frame := some { f' with excess := f.excess + 1 } }))) ∧
      (f.arrived < g.height → 64 ≤ linesQueued p →
        let t := s.setPort b { p with frame := some { f' with dropped := f.dropped + 1 } }
        exec (.line b pixels) s = .next (idleBoundary (
          if f.dropped = 0 then raise .lineOverrun [slot (sideNum b), slot f.number, slot f.arrived, 0] t else t))) ∧
      (f.arrived < g.height → linesQueued p < 64 →
        let forwarded := pixels.take g.width
        let window := (pixels.drop g.x0).take (g.x1 + 1 - g.x0)
        let crc := crcMore f.crc (pixelBytes forwarded)
        exec (.line b pixels) s = .next (idleBoundary (s.setPort b { p with
          queue := p.queue ++ [.line b f.number f.arrived forwarded]
          frame := some (
            if pixels.length ≠ g.width then { f' with crc := crc, bad := f.bad + 1 }
            else if g.y0 ≤ f.arrived ∧ f.arrived ≤ g.y1 then { f' with
              crc := crc, sum := f.sum + (window.map (·.toNat)).sum, n := f.n + window.length
              clips := f.clips + window.countP fun q => decide (g.clipLevel ≤ q.toNat) }
            else { f' with crc := crc }) }))))

/-- 06 R127 to R130: the end of a frame, by its framing or by a stall, queues its trailer, lets the header go, takes a
waiting header up, and hands the verdict to the channel: the first of the table that applies. Outside RECEIVING it is
ignored. -/
def Obligations.FramesEnd : Prop :=
  ∀ (b : Side) (s : State), s.start ≠ .held →
    let p := s.port b
    (p.state ≠ .receiving → exec (.frameEnd b) s = .next (idleBoundary (react s)) ∧ exec (.stall b) s = .next (idleBoundary (react s))) ∧
    (∀ h f, p.state = .receiving → p.armed = some h → p.frame = some f →
      let mean := if f.n = 0 then 0 else f.sum / f.n
      let clips := if f.n = 0 then 1000 else f.clips * 1000 / f.n
      let verdict :=
        if h.status = .abandoned then Verdict.abandoned
        else if h.status = .expired then .late
        else if f.moved then .moved
        else if f.arrived < f.geometry.height ∨ 1 ≤ f.bad then .truncated
        else if 1 ≤ f.dropped then .overrun
        else if mean < h.lo then .under
        else if h.hi < mean then .over
        else if h.clipLimit < clips then .clipped
        else .good
      let trailer (cause : EndCause) : Burst := .trailer {
        port := b, number := f.number, verdict := verdict, cause := cause, mean := mean, clipPerMille := clips
        n := f.n, arrived := f.arrived, dropped := f.dropped, bad := f.bad, excess := f.excess
        forwarded := f.arrived - f.dropped - f.excess, crc := f.crc }
      (p.waiting = none →
        let t (cause : EndCause) : State := takeVerdict b verdict (s.setPort b { p with
          state := .idle, armed := none, frame := none, queue := p.queue ++ [trailer cause] })
        exec (.frameEnd b) s = .next (idleBoundary (react (t .frameEnd))) ∧ exec (.stall b) s = .next (idleBoundary (react (t .stall)))) ∧
      (∀ w, p.waiting = some w → (s.chan b).state = .arming →
        let t (cause : EndCause) : State := takeVerdict b verdict ((s.setPort b { p with
          state := .armed, armed := some w, waiting := none, frame := none, queue := p.queue ++ [trailer cause] }).setChan
            b { s.chan b with state := .gating })
        exec (.frameEnd b) s = .next (idleBoundary (react (t .frameEnd))) ∧ exec (.stall b) s = .next (idleBoundary (react (t .stall)))))

/-! ### What every step keeps -/

/-- 08 R156 R159 R166, 06 R115 R116 R122: the reply queue holds at most 8 replies and the counts stay 16-bit counts;
the transmitter of an UP link, which is UP only after the start-up (`quietLaw`), is idle only while no reply, no eligible
notice and no burst is offered; each port holds what its state says, at most 64 lines and four markers. -/
def Obligations.EveryStepKeepsTheLinkAndThePorts : Prop :=
  ∀ s t : State, step s = .next t →
    (linkLaw s.link → linkLaw t.link) ∧ (quietLaw s → idleLaw s → idleLaw t) ∧ (portsLaw s → portsLaw t)

/-- 04 R88 and R89: the mismatch count is at most 4, and 0 while the lock is OPEN. 09 R169 and R170: sixteen sources, a
clear one holding nothing. 10 R175: every setting in its range and every table whole, in the working copy and in the
image. 03 R54 and R56: a lock-out for each of the twelve channels, and each scan at one of its six slots. -/
def Obligations.EveryStepKeepsTheLockTheNoticesAndTheSettings : Prop :=
  ∀ s t : State, step s = .next t →
    (lockLaw s → lockLaw t) ∧ (noticesLaw s → noticesLaw t) ∧ (settingsLaw s → settingsLaw t) ∧
    (lampsLaw s.lamps → lampsLaw t.lamps)

/-- 07 R135 and R137: every counter is the number of targets in its state from READY to CLOSED, so the seven side counts
sum to 2N and the panel counts to the panels loaded. -/
def Obligations.EveryStepKeepsTheCounters : Prop :=
  (∀ s t : State, countersLaw s → step s = .next t → countersLaw t) ∧
  ∀ s : State, countersLaw s → tallyReadable s = true →
    s.tally.sideCounts.total = 2 * leafCount s ∧ s.tally.panelCounts.total = panelsLoaded s.col.foldouts

/-- 07 R142: the retake list is ascending without a duplicate, holds at most 128 entries, and each names a PENDING
side. -/
def Obligations.EveryStepKeepsTheRetakeList : Prop :=
  ∀ s t : State, retakesLaw s → step s = .next t → retakesLaw t

/-- 04 R79 and R80: from READY on, the volume dose is the prior dose and every dose charged to a target. -/
def Obligations.EveryStepKeepsTheDoseAccount : Prop :=
  ∀ s t : State, accountLaw s → step s = .next t → accountLaw t

/-- 04 R79 and R80: no target's dose exceeds the side limit of the volume's class and the volume dose never its volume
limit, while the volume is loaded; the limits stand meanwhile, since no recall runs and no reset is awaited. -/
def Obligations.EveryStepKeepsTheDoseLimits : Prop :=
  ∀ s t : State, limitsLaw s → quietLaw s → step s = .next t → limitsLaw t ∧ quietLaw t

/-- 08 R155 and R156, 11 R181 to R183: the frame of a well-formed directive reads back as that directive, with every
tag and every slot. Received byte by byte on an UP link with no frame in reception, it puts that directive at the tail
of the queue and leaves no frame in reception (log 43); on a DOWN link nothing is received. -/
def Obligations.DecodeReadsEveryDirectiveBack : Prop :=
  ∀ (i : Instr) (bytes : List Byte), wellFormed i = true → encodeFrame i = some bytes →
    decodeFrame bytes = i ∧
    ∀ s : State,
      (s.link.up = true → s.link.incoming = [] → s.receive bytes = { s with pending := s.pending ++ [i] }) ∧
      (s.link.up = false → s.receive bytes = s)

end Statements
end

