-- ==== Sys2Proof/Laws/State.lean ====
section
/-! SUPPORT. One lemma for each field of the state and each named update of it, true by definition, so that no proof
unfolds a record update. -/

namespace Sys2Proof.Machine

/-! `State.setSeq` -/

@[simp] theorem State.setSeq_pending (s : State) (q : Sequencer) : (s.setSeq q).pending = s.pending := rfl
@[simp] theorem State.setSeq_col (s : State) (q : Sequencer) : (s.setSeq q).col = s.col := rfl
@[simp] theorem State.setSeq_tally (s : State) (q : Sequencer) : (s.setSeq q).tally = s.tally := rfl
@[simp] theorem State.setSeq_seq (s : State) (q : Sequencer) : (s.setSeq q).seq = q := rfl
@[simp] theorem State.setSeq_lamps (s : State) (q : Sequencer) : (s.setSeq q).lamps = s.lamps := rfl
@[simp] theorem State.setSeq_dose (s : State) (q : Sequencer) : (s.setSeq q).dose = s.dose := rfl
@[simp] theorem State.setSeq_chans (s : State) (q : Sequencer) : (s.setSeq q).chans = s.chans := rfl
@[simp] theorem State.setSeq_ports (s : State) (q : Sequencer) : (s.setSeq q).ports = s.ports := rfl
@[simp] theorem State.setSeq_link (s : State) (q : Sequencer) : (s.setSeq q).link = s.link := rfl
@[simp] theorem State.setSeq_notices (s : State) (q : Sequencer) : (s.setSeq q).notices = s.notices := rfl
@[simp] theorem State.setSeq_settings (s : State) (q : Sequencer) : (s.setSeq q).settings = s.settings := rfl
@[simp] theorem State.setSeq_store (s : State) (q : Sequencer) : (s.setSeq q).store = s.store := rfl
@[simp] theorem State.setSeq_start (s : State) (q : Sequencer) : (s.setSeq q).start = s.start := rfl
@[simp] theorem State.setSeq_pins (s : State) (q : Sequencer) : (s.setSeq q).pins = s.pins := rfl

/-! `State.setOutputs` -/

@[simp] theorem State.setOutputs_pending (s : State) (o : Outputs) : (s.setOutputs o).pending = s.pending := rfl
@[simp] theorem State.setOutputs_col (s : State) (o : Outputs) : (s.setOutputs o).col = s.col := rfl
@[simp] theorem State.setOutputs_tally (s : State) (o : Outputs) : (s.setOutputs o).tally = s.tally := rfl
@[simp] theorem State.setOutputs_seq (s : State) (o : Outputs) : (s.setOutputs o).seq = { s.seq with outputs := o } := rfl
@[simp] theorem State.setOutputs_lamps (s : State) (o : Outputs) : (s.setOutputs o).lamps = s.lamps := rfl
@[simp] theorem State.setOutputs_dose (s : State) (o : Outputs) : (s.setOutputs o).dose = s.dose := rfl
@[simp] theorem State.setOutputs_chans (s : State) (o : Outputs) : (s.setOutputs o).chans = s.chans := rfl
@[simp] theorem State.setOutputs_ports (s : State) (o : Outputs) : (s.setOutputs o).ports = s.ports := rfl
@[simp] theorem State.setOutputs_link (s : State) (o : Outputs) : (s.setOutputs o).link = s.link := rfl
@[simp] theorem State.setOutputs_notices (s : State) (o : Outputs) : (s.setOutputs o).notices = s.notices := rfl
@[simp] theorem State.setOutputs_settings (s : State) (o : Outputs) : (s.setOutputs o).settings = s.settings := rfl
@[simp] theorem State.setOutputs_store (s : State) (o : Outputs) : (s.setOutputs o).store = s.store := rfl
@[simp] theorem State.setOutputs_start (s : State) (o : Outputs) : (s.setOutputs o).start = s.start := rfl
@[simp] theorem State.setOutputs_pins (s : State) (o : Outputs) : (s.setOutputs o).pins = s.pins := rfl

/-! `State.setChan` -/

@[simp] theorem State.setChan_pending (s : State) (b : Side) (c : Channel) :
    (s.setChan b c).pending = s.pending := rfl
@[simp] theorem State.setChan_col (s : State) (b : Side) (c : Channel) :
    (s.setChan b c).col = s.col := rfl
@[simp] theorem State.setChan_tally (s : State) (b : Side) (c : Channel) :
    (s.setChan b c).tally = s.tally := rfl
@[simp] theorem State.setChan_seq (s : State) (b : Side) (c : Channel) :
    (s.setChan b c).seq = s.seq := rfl
@[simp] theorem State.setChan_lamps (s : State) (b : Side) (c : Channel) :
    (s.setChan b c).lamps = s.lamps := rfl
@[simp] theorem State.setChan_dose (s : State) (b : Side) (c : Channel) :
    (s.setChan b c).dose = s.dose := rfl
@[simp] theorem State.setChan_chans (s : State) (b : Side) (c : Channel) :
    (s.setChan b c).chans = s.chans.set b c := rfl
@[simp] theorem State.setChan_ports (s : State) (b : Side) (c : Channel) :
    (s.setChan b c).ports = s.ports := rfl
@[simp] theorem State.setChan_link (s : State) (b : Side) (c : Channel) :
    (s.setChan b c).link = s.link := rfl
@[simp] theorem State.setChan_notices (s : State) (b : Side) (c : Channel) :
    (s.setChan b c).notices = s.notices := rfl
@[simp] theorem State.setChan_settings (s : State) (b : Side) (c : Channel) :
    (s.setChan b c).settings = s.settings := rfl
@[simp] theorem State.setChan_store (s : State) (b : Side) (c : Channel) :
    (s.setChan b c).store = s.store := rfl
@[simp] theorem State.setChan_start (s : State) (b : Side) (c : Channel) :
    (s.setChan b c).start = s.start := rfl
@[simp] theorem State.setChan_pins (s : State) (b : Side) (c : Channel) :
    (s.setChan b c).pins = s.pins := rfl

/-! `State.setPort` -/

@[simp] theorem State.setPort_pending (s : State) (b : Side) (p : Port) : (s.setPort b p).pending = s.pending := rfl
@[simp] theorem State.setPort_col (s : State) (b : Side) (p : Port) : (s.setPort b p).col = s.col := rfl
@[simp] theorem State.setPort_tally (s : State) (b : Side) (p : Port) : (s.setPort b p).tally = s.tally := rfl
@[simp] theorem State.setPort_seq (s : State) (b : Side) (p : Port) : (s.setPort b p).seq = s.seq := rfl
@[simp] theorem State.setPort_lamps (s : State) (b : Side) (p : Port) : (s.setPort b p).lamps = s.lamps := rfl
@[simp] theorem State.setPort_dose (s : State) (b : Side) (p : Port) : (s.setPort b p).dose = s.dose := rfl
@[simp] theorem State.setPort_chans (s : State) (b : Side) (p : Port) : (s.setPort b p).chans = s.chans := rfl
@[simp] theorem State.setPort_ports (s : State) (b : Side) (p : Port) : (s.setPort b p).ports = s.ports.set b p := rfl
@[simp] theorem State.setPort_link (s : State) (b : Side) (p : Port) : (s.setPort b p).link = s.link := rfl
@[simp] theorem State.setPort_notices (s : State) (b : Side) (p : Port) : (s.setPort b p).notices = s.notices := rfl
@[simp] theorem State.setPort_settings (s : State) (b : Side) (p : Port) : (s.setPort b p).settings = s.settings := rfl
@[simp] theorem State.setPort_store (s : State) (b : Side) (p : Port) : (s.setPort b p).store = s.store := rfl
@[simp] theorem State.setPort_start (s : State) (b : Side) (p : Port) : (s.setPort b p).start = s.start := rfl
@[simp] theorem State.setPort_pins (s : State) (b : Side) (p : Port) : (s.setPort b p).pins = s.pins := rfl

/-! `raise` -/

@[simp] theorem raise_pending (src : Source) (d : List Slot) (s : State) : (raise src d s).pending = s.pending := rfl
@[simp] theorem raise_col (src : Source) (d : List Slot) (s : State) : (raise src d s).col = s.col := rfl
@[simp] theorem raise_tally (src : Source) (d : List Slot) (s : State) : (raise src d s).tally = s.tally := rfl
@[simp] theorem raise_seq (src : Source) (d : List Slot) (s : State) : (raise src d s).seq = s.seq := rfl
@[simp] theorem raise_lamps (src : Source) (d : List Slot) (s : State) : (raise src d s).lamps = s.lamps := rfl
@[simp] theorem raise_dose (src : Source) (d : List Slot) (s : State) : (raise src d s).dose = s.dose := rfl
@[simp] theorem raise_chans (src : Source) (d : List Slot) (s : State) : (raise src d s).chans = s.chans := rfl
@[simp] theorem raise_ports (src : Source) (d : List Slot) (s : State) : (raise src d s).ports = s.ports := rfl
@[simp] theorem raise_link (src : Source) (d : List Slot) (s : State) : (raise src d s).link = s.link := rfl
@[simp] theorem raise_notices (src : Source) (d : List Slot) (s : State) :
    (raise src d s).notices = { s.notices with
      sources := s.notices.sources.modify src.num (·.raise d (noticeStamp s)) } := rfl
@[simp] theorem raise_settings (src : Source) (d : List Slot) (s : State) : (raise src d s).settings = s.settings := rfl
@[simp] theorem raise_store (src : Source) (d : List Slot) (s : State) : (raise src d s).store = s.store := rfl
@[simp] theorem raise_start (src : Source) (d : List Slot) (s : State) : (raise src d s).start = s.start := rfl
@[simp] theorem raise_pins (src : Source) (d : List Slot) (s : State) : (raise src d s).pins = s.pins := rfl

/-! `restartDark` -/

@[simp] theorem restartDark_pending (s : State) : (restartDark s).pending = s.pending := rfl
@[simp] theorem restartDark_col (s : State) : (restartDark s).col = s.col := rfl
@[simp] theorem restartDark_tally (s : State) : (restartDark s).tally = s.tally := rfl
@[simp] theorem restartDark_seq (s : State) : (restartDark s).seq = s.seq := rfl
@[simp] theorem restartDark_lamps (s : State) :
    (restartDark s).lamps = { s.lamps with
      darkExpired := false
      darkLeft := if s.settings.darkDelay = 0 then none else some (s.settings.darkDelay * 1000) } := rfl
@[simp] theorem restartDark_dose (s : State) : (restartDark s).dose = s.dose := rfl
@[simp] theorem restartDark_chans (s : State) : (restartDark s).chans = s.chans := rfl
@[simp] theorem restartDark_ports (s : State) : (restartDark s).ports = s.ports := rfl
@[simp] theorem restartDark_link (s : State) : (restartDark s).link = s.link := rfl
@[simp] theorem restartDark_notices (s : State) : (restartDark s).notices = s.notices := rfl
@[simp] theorem restartDark_settings (s : State) : (restartDark s).settings = s.settings := rfl
@[simp] theorem restartDark_store (s : State) : (restartDark s).store = s.store := rfl
@[simp] theorem restartDark_start (s : State) : (restartDark s).start = s.start := rfl
@[simp] theorem restartDark_pins (s : State) : (restartDark s).pins = s.pins := rfl

/-! `setVolState` -/

@[simp] theorem setVolState_pending (v : VolState) (s : State) : (setVolState v s).pending = s.pending := rfl
@[simp] theorem setVolState_col (v : VolState) (s : State) : (setVolState v s).col = { s.col with volState := v } := rfl
@[simp] theorem setVolState_tally (v : VolState) (s : State) : (setVolState v s).tally = s.tally := rfl
@[simp] theorem setVolState_seq (v : VolState) (s : State) : (setVolState v s).seq = s.seq := rfl
@[simp] theorem setVolState_lamps (v : VolState) (s : State) : (setVolState v s).lamps = s.lamps := rfl
@[simp] theorem setVolState_dose (v : VolState) (s : State) : (setVolState v s).dose = s.dose := rfl
@[simp] theorem setVolState_chans (v : VolState) (s : State) : (setVolState v s).chans = s.chans := rfl
@[simp] theorem setVolState_ports (v : VolState) (s : State) : (setVolState v s).ports = s.ports := rfl
@[simp] theorem setVolState_link (v : VolState) (s : State) : (setVolState v s).link = s.link := rfl
@[simp] theorem setVolState_notices (v : VolState) (s : State) : (setVolState v s).notices = s.notices := rfl
@[simp] theorem setVolState_settings (v : VolState) (s : State) : (setVolState v s).settings = s.settings := rfl
@[simp] theorem setVolState_store (v : VolState) (s : State) : (setVolState v s).store = s.store := rfl
@[simp] theorem setVolState_start (v : VolState) (s : State) : (setVolState v s).start = s.start := rfl
@[simp] theorem setVolState_pins (v : VolState) (s : State) : (setVolState v s).pins = s.pins := rfl

/-! `setLock` -/

@[simp] theorem setLock_pending (l : LockState) (s : State) : (setLock l s).pending = s.pending := rfl
@[simp] theorem setLock_col (l : LockState) (s : State) : (setLock l s).col = s.col := rfl
@[simp] theorem setLock_tally (l : LockState) (s : State) : (setLock l s).tally = s.tally := rfl
@[simp] theorem setLock_seq (l : LockState) (s : State) : (setLock l s).seq = s.seq := rfl
@[simp] theorem setLock_lamps (l : LockState) (s : State) : (setLock l s).lamps = s.lamps := rfl
@[simp] theorem setLock_dose (l : LockState) (s : State) : (setLock l s).dose = { s.dose with lock := l } := rfl
@[simp] theorem setLock_chans (l : LockState) (s : State) : (setLock l s).chans = s.chans := rfl
@[simp] theorem setLock_ports (l : LockState) (s : State) : (setLock l s).ports = s.ports := rfl
@[simp] theorem setLock_link (l : LockState) (s : State) : (setLock l s).link = s.link := rfl
@[simp] theorem setLock_notices (l : LockState) (s : State) : (setLock l s).notices = s.notices := rfl
@[simp] theorem setLock_settings (l : LockState) (s : State) : (setLock l s).settings = s.settings := rfl
@[simp] theorem setLock_store (l : LockState) (s : State) : (setLock l s).store = s.store := rfl
@[simp] theorem setLock_start (l : LockState) (s : State) : (setLock l s).start = s.start := rfl
@[simp] theorem setLock_pins (l : LockState) (s : State) : (setLock l s).pins = s.pins := rfl

/-! `setSettings` -/

@[simp] theorem setSettings_pending (q : Settings) (s : State) : (setSettings q s).pending = s.pending := rfl
@[simp] theorem setSettings_col (q : Settings) (s : State) : (setSettings q s).col = s.col := rfl
@[simp] theorem setSettings_tally (q : Settings) (s : State) : (setSettings q s).tally = s.tally := rfl
@[simp] theorem setSettings_seq (q : Settings) (s : State) : (setSettings q s).seq = s.seq := rfl
@[simp] theorem setSettings_lamps (q : Settings) (s : State) : (setSettings q s).lamps = s.lamps := rfl
@[simp] theorem setSettings_dose (q : Settings) (s : State) : (setSettings q s).dose = s.dose := rfl
@[simp] theorem setSettings_chans (q : Settings) (s : State) : (setSettings q s).chans = s.chans := rfl
@[simp] theorem setSettings_ports (q : Settings) (s : State) : (setSettings q s).ports = s.ports := rfl
@[simp] theorem setSettings_link (q : Settings) (s : State) : (setSettings q s).link = s.link := rfl
@[simp] theorem setSettings_notices (q : Settings) (s : State) : (setSettings q s).notices = s.notices := rfl
@[simp] theorem setSettings_settings (q : Settings) (s : State) : (setSettings q s).settings = q := rfl
@[simp] theorem setSettings_store (q : Settings) (s : State) : (setSettings q s).store = s.store := rfl
@[simp] theorem setSettings_start (q : Settings) (s : State) : (setSettings q s).start = s.start := rfl
@[simp] theorem setSettings_pins (q : Settings) (s : State) : (setSettings q s).pins = s.pins := rfl

/-! `setSupply` -/

@[simp] theorem setSupply_pending (q : Supply) (ms : Nat) (s : State) : (setSupply q ms s).pending = s.pending := rfl
@[simp] theorem setSupply_col (q : Supply) (ms : Nat) (s : State) : (setSupply q ms s).col = s.col := rfl
@[simp] theorem setSupply_tally (q : Supply) (ms : Nat) (s : State) : (setSupply q ms s).tally = s.tally := rfl
@[simp] theorem setSupply_seq (q : Supply) (ms : Nat) (s : State) : (setSupply q ms s).seq = s.seq := rfl
@[simp] theorem setSupply_lamps (q : Supply) (ms : Nat) (s : State) :
    (setSupply q ms s).lamps = { s.lamps with supply := q, recovery := ms } := rfl
@[simp] theorem setSupply_dose (q : Supply) (ms : Nat) (s : State) : (setSupply q ms s).dose = s.dose := rfl
@[simp] theorem setSupply_chans (q : Supply) (ms : Nat) (s : State) : (setSupply q ms s).chans = s.chans := rfl
@[simp] theorem setSupply_ports (q : Supply) (ms : Nat) (s : State) : (setSupply q ms s).ports = s.ports := rfl
@[simp] theorem setSupply_link (q : Supply) (ms : Nat) (s : State) : (setSupply q ms s).link = s.link := rfl
@[simp] theorem setSupply_notices (q : Supply) (ms : Nat) (s : State) : (setSupply q ms s).notices = s.notices := rfl
@[simp] theorem setSupply_settings (q : Supply) (ms : Nat) (s : State) : (setSupply q ms s).settings = s.settings := rfl
@[simp] theorem setSupply_store (q : Supply) (ms : Nat) (s : State) : (setSupply q ms s).store = s.store := rfl
@[simp] theorem setSupply_start (q : Supply) (ms : Nat) (s : State) : (setSupply q ms s).start = s.start := rfl
@[simp] theorem setSupply_pins (q : Supply) (ms : Nat) (s : State) : (setSupply q ms s).pins = s.pins := rfl

/-! `setStrobe` -/

@[simp] theorem setStrobe_pending (b : Side) (x : Option Strobe) (s : State) :
    (setStrobe b x s).pending = s.pending := rfl
@[simp] theorem setStrobe_col (b : Side) (x : Option Strobe) (s : State) : (setStrobe b x s).col = s.col := rfl
@[simp] theorem setStrobe_tally (b : Side) (x : Option Strobe) (s : State) : (setStrobe b x s).tally = s.tally := rfl
@[simp] theorem setStrobe_seq (b : Side) (x : Option Strobe) (s : State) : (setStrobe b x s).seq = s.seq := rfl
@[simp] theorem setStrobe_lamps (b : Side) (x : Option Strobe) (s : State) :
    (setStrobe b x s).lamps = { s.lamps with strobe := s.lamps.strobe.set b x } := rfl
@[simp] theorem setStrobe_dose (b : Side) (x : Option Strobe) (s : State) : (setStrobe b x s).dose = s.dose := rfl
@[simp] theorem setStrobe_chans (b : Side) (x : Option Strobe) (s : State) : (setStrobe b x s).chans = s.chans := rfl
@[simp] theorem setStrobe_ports (b : Side) (x : Option Strobe) (s : State) : (setStrobe b x s).ports = s.ports := rfl
@[simp] theorem setStrobe_link (b : Side) (x : Option Strobe) (s : State) : (setStrobe b x s).link = s.link := rfl
@[simp] theorem setStrobe_notices (b : Side) (x : Option Strobe) (s : State) :
    (setStrobe b x s).notices = s.notices := rfl
@[simp] theorem setStrobe_settings (b : Side) (x : Option Strobe) (s : State) :
    (setStrobe b x s).settings = s.settings := rfl
@[simp] theorem setStrobe_store (b : Side) (x : Option Strobe) (s : State) : (setStrobe b x s).store = s.store := rfl
@[simp] theorem setStrobe_start (b : Side) (x : Option Strobe) (s : State) : (setStrobe b x s).start = s.start := rfl
@[simp] theorem setStrobe_pins (b : Side) (x : Option Strobe) (s : State) : (setStrobe b x s).pins = s.pins := rfl

/-! `startSlot` -/

@[simp] theorem startSlot_pending (b : Side) (i : Nat) (s : State) : (startSlot b i s).pending = s.pending := rfl
@[simp] theorem startSlot_col (b : Side) (i : Nat) (s : State) : (startSlot b i s).col = s.col := rfl
@[simp] theorem startSlot_tally (b : Side) (i : Nat) (s : State) : (startSlot b i s).tally = s.tally := rfl
@[simp] theorem startSlot_seq (b : Side) (i : Nat) (s : State) : (startSlot b i s).seq = s.seq := rfl
@[simp] theorem startSlot_lamps (b : Side) (i : Nat) (s : State) :
    (startSlot b i s).lamps = { s.lamps with
      scanSlot := s.lamps.scanSlot.set b i
      slotDuty := s.lamps.slotDuty.set b (cappedPreview s (firstChannel b + i)) } := rfl
@[simp] theorem startSlot_dose (b : Side) (i : Nat) (s : State) : (startSlot b i s).dose = s.dose := rfl
@[simp] theorem startSlot_chans (b : Side) (i : Nat) (s : State) : (startSlot b i s).chans = s.chans := rfl
@[simp] theorem startSlot_ports (b : Side) (i : Nat) (s : State) : (startSlot b i s).ports = s.ports := rfl
@[simp] theorem startSlot_link (b : Side) (i : Nat) (s : State) : (startSlot b i s).link = s.link := rfl
@[simp] theorem startSlot_notices (b : Side) (i : Nat) (s : State) : (startSlot b i s).notices = s.notices := rfl
@[simp] theorem startSlot_settings (b : Side) (i : Nat) (s : State) : (startSlot b i s).settings = s.settings := rfl
@[simp] theorem startSlot_store (b : Side) (i : Nat) (s : State) : (startSlot b i s).store = s.store := rfl
@[simp] theorem startSlot_start (b : Side) (i : Nat) (s : State) : (startSlot b i s).start = s.start := rfl
@[simp] theorem startSlot_pins (b : Side) (i : Nat) (s : State) : (startSlot b i s).pins = s.pins := rfl

/-! `darkenStrobes` -/

@[simp] theorem darkenStrobes_pending (s : State) : (darkenStrobes s).pending = s.pending := rfl
@[simp] theorem darkenStrobes_col (s : State) : (darkenStrobes s).col = s.col := rfl
@[simp] theorem darkenStrobes_tally (s : State) : (darkenStrobes s).tally = s.tally := rfl
@[simp] theorem darkenStrobes_seq (s : State) : (darkenStrobes s).seq = s.seq := rfl
@[simp] theorem darkenStrobes_dose (s : State) : (darkenStrobes s).dose = s.dose := rfl
@[simp] theorem darkenStrobes_chans (s : State) : (darkenStrobes s).chans = s.chans := rfl
@[simp] theorem darkenStrobes_ports (s : State) : (darkenStrobes s).ports = s.ports := rfl
@[simp] theorem darkenStrobes_link (s : State) : (darkenStrobes s).link = s.link := rfl
@[simp] theorem darkenStrobes_notices (s : State) : (darkenStrobes s).notices = s.notices := rfl
@[simp] theorem darkenStrobes_settings (s : State) : (darkenStrobes s).settings = s.settings := rfl
@[simp] theorem darkenStrobes_store (s : State) : (darkenStrobes s).store = s.store := rfl
@[simp] theorem darkenStrobes_start (s : State) : (darkenStrobes s).start = s.start := rfl
@[simp] theorem darkenStrobes_pins (s : State) : (darkenStrobes s).pins = s.pins := rfl

/-! Pairs -/

@[simp] theorem Both.get_set {α : Type} (p : Both α) (i : Side) (x : α) : (p.set i x).get i = x := by
  cases i <;> rfl

@[simp] theorem Both.get_set_other {α : Type} (p : Both α) (i : Side) (x : α) :
    (p.set i x).get i.other = p.get i.other := by
  cases i <;> rfl

@[simp] theorem Both.get_both {α : Type} (x : α) (i : Side) : (both x).get i = x := by cases i <;> rfl

theorem Both.get_set_ite {α : Type} (p : Both α) (i j : Side) (x : α) :
    (p.set i x).get j = if j = i then x else p.get j := by
  cases i <;> cases j <;> rfl

@[simp] theorem State.chan_setChan (s : State) (b : Side) (c : Channel) : (s.setChan b c).chan b = c :=
  Both.get_set ..

@[simp] theorem State.port_setPort (s : State) (b : Side) (p : Port) : (s.setPort b p).port b = p :=
  Both.get_set ..

theorem State.chan_setChan_ite (s : State) (b d : Side) (c : Channel) :
    (s.setChan b c).chan d = if d = b then c else s.chan d := Both.get_set_ite ..

theorem State.port_setPort_ite (s : State) (b d : Side) (p : Port) :
    (s.setPort b p).port d = if d = b then p else s.port d := Both.get_set_ite ..

@[simp] theorem State.chan_setSeq (s : State) (q : Sequencer) (b : Side) : (s.setSeq q).chan b = s.chan b := rfl

@[simp] theorem State.port_setSeq (s : State) (q : Sequencer) (b : Side) : (s.setSeq q).port b = s.port b := rfl

@[simp] theorem State.chan_setPort (s : State) (b d : Side) (p : Port) : (s.setPort b p).chan d = s.chan d := rfl

@[simp] theorem State.port_setChan (s : State) (b d : Side) (c : Channel) : (s.setChan b c).port d = s.port d := rfl

@[simp] theorem State.chan_raise (src : Source) (e : List Slot) (s : State) (b : Side) :
    (raise src e s).chan b = s.chan b := rfl

@[simp] theorem State.port_raise (src : Source) (e : List Slot) (s : State) (b : Side) :
    (raise src e s).port b = s.port b := rfl

/-! The arbiter: a frame taken changes the link, the notices and the burst queues alone -/

theorem takeNext_rest (s : State) : takeNext s =
    { s with link := (takeNext s).link, notices := (takeNext s).notices, ports := (takeNext s).ports } := by
  unfold takeNext
  split
  · rfl
  · split
    · rfl
    · split
      · unfold takeBurst
        split <;> rfl
      · rfl

/-- What the idle boundary can change. -/
theorem idleBoundary_rest (s : State) : idleBoundary s = { s with
    link := (idleBoundary s).link, notices := (idleBoundary s).notices, ports := (idleBoundary s).ports } := by
  unfold idleBoundary
  split
  · exact takeNext_rest s
  · rfl

@[simp] theorem idleBoundary_pending (s : State) : (idleBoundary s).pending = s.pending := by rw [idleBoundary_rest]
@[simp] theorem idleBoundary_col (s : State) : (idleBoundary s).col = s.col := by rw [idleBoundary_rest]
@[simp] theorem idleBoundary_tally (s : State) : (idleBoundary s).tally = s.tally := by rw [idleBoundary_rest]
@[simp] theorem idleBoundary_seq (s : State) : (idleBoundary s).seq = s.seq := by rw [idleBoundary_rest]
@[simp] theorem idleBoundary_lamps (s : State) : (idleBoundary s).lamps = s.lamps := by rw [idleBoundary_rest]
@[simp] theorem idleBoundary_dose (s : State) : (idleBoundary s).dose = s.dose := by rw [idleBoundary_rest]
@[simp] theorem idleBoundary_chans (s : State) : (idleBoundary s).chans = s.chans := by rw [idleBoundary_rest]
@[simp] theorem idleBoundary_settings (s : State) : (idleBoundary s).settings = s.settings := by rw [idleBoundary_rest]
@[simp] theorem idleBoundary_store (s : State) : (idleBoundary s).store = s.store := by rw [idleBoundary_rest]
@[simp] theorem idleBoundary_start (s : State) : (idleBoundary s).start = s.start := by rw [idleBoundary_rest]
@[simp] theorem idleBoundary_pins (s : State) : (idleBoundary s).pins = s.pins := by rw [idleBoundary_rest]

/-- No boundary comes while the link is DOWN or a frame is being sent. -/
theorem idleBoundary_none {s : State} (h : s.link.up = false ∨ s.link.sending ≠ none) : idleBoundary s = s := by
  unfold idleBoundary
  rcases h with h | h <;> simp [h]

/-! Directives -/

/-- A directive taken is answered by its rule (08 R158). -/
theorem directive_taken {tag : Byte} {code : Slot} {rule : State → Answer} {s : State} (h : takesDirective s = true) :
    directive tag code rule s = giveReply tag code (rule s) := by simp [directive, h]

/-- Everything a directive can do: answer, count a discard, or nothing. -/
theorem directive_cases (tag : Byte) (code : Slot) (rule : State → Answer) (s : State) :
    directive tag code rule s = giveReply tag code (rule s) ∧ takesDirective s = true ∨
    directive tag code rule s = { s with link := { s.link with discards := countUp 65535 s.link.discards } } ∨
    directive tag code rule s = s := by
  unfold directive
  split
  · exact .inl ⟨rfl, ‹_›⟩
  · split
    · exact .inr (.inl rfl)
    · exact .inr (.inr rfl)

/-- The reply joins the tail of the queue, whatever its code. -/
@[simp] theorem queueReply_replies (tag : Byte) (code : Slot) (a : Answer) :
    (queueReply tag code a).link.replies = a.state.link.replies ++ [⟨tag, code, a.code, a.results⟩] := by
  unfold queueReply
  split <;> rfl

/-- While a frame is being sent the reply waits in the queue. -/
theorem giveReply_sending {tag : Byte} {code : Slot} {a : Answer} (h : a.state.link.sending ≠ none) :
    giveReply tag code a = queueReply tag code a := by
  refine idleBoundary_none (.inr ?_)
  unfold queueReply
  split <;> exact h

end Sys2Proof.Machine
end

