-- ==== Sys2Proof/Laws/Tally.lean ====
section
/-! SUPPORT. The tally fields as a map from targets: what one change does to every reading, to the counters and to the
sums. -/

namespace Sys2Proof.Machine

/-! ### Reading after a change -/

theorem LeafRecord.face_setFace (l : LeafRecord) (f g : Face) (q : TallyFields) :
    (l.setFace f q).face g = if g = f then q else l.face g := by
  cases f <;> cases g <;> rfl

/-- Reading any target's fields after a change of one target's fields. -/
theorem fieldsOf_modifyFields (s : State) (t u : Target) (g : TallyFields → TallyFields) :
    fieldsOf (modifyFields t g s) u = if u = t then (fieldsOf s t).map g else fieldsOf s u := by
  cases t with
  | side i f =>
    cases u with
    | side j e =>
      simp only [fieldsOf, modifyFields, List.getElem?_modify, Target.side.injEq]
      by_cases hij : i = j
      · subst hij
        by_cases hef : e = f
        · subst hef; cases h : s.col.leaves[i]? <;> simp [LeafRecord.face_setFace]
        · cases h : s.col.leaves[i]? <;> simp [LeafRecord.face_setFace, hef]
      · simp [hij, Ne.symm hij]
    | panel a n => simp [fieldsOf, modifyFields, panelsOf]
  | panel a n =>
    cases u with
    | side j e =>
      by_cases hn : n = 0 <;> simp [fieldsOf, modifyFields, hn]
    | panel b m =>
      simp only [fieldsOf, modifyFields, Target.panel.injEq]
      by_cases hn : n = 0
      · subst hn
        simp only [↓reduceIte]
        by_cases hb : b = a ∧ m = 0
        · obtain ⟨rfl, rfl⟩ := hb; simp
        · simp [hb]
      · simp only [if_neg hn, panelsOf, List.getElem?_modify]
        by_cases hab : a = b
        · subst hab
          rcases h : s.col.foldouts[a]? with _ | (_ | ps)
          · by_cases hm : m = n <;> simp [hm]
          · by_cases hm : m = n <;> simp [hm]
          · simp only [ite_true, Option.map_eq_map, Option.map_some, Option.join_some, Option.bind_some, true_and]
            by_cases hm0 : m = 0
            · subst hm0; simp [Ne.symm hn]
            · simp only [if_neg hm0, List.getElem?_modify]
              by_cases hmn : m = n
              · subst hmn; simp
                cases ps[m - 1]? <;> simp
              · have : n - 1 ≠ m - 1 := by omega
                simp [hmn, this]
        · have hba : ¬ b = a := fun h => hab h.symm
          simp [hab, hba]

@[simp] theorem modifyFields_leaves_length (t : Target) (g : TallyFields → TallyFields) (s : State) :
    (modifyFields t g s).col.leaves.length = s.col.leaves.length := by
  unfold modifyFields; split <;> (try split) <;> simp

@[simp] theorem modifyFields_foldouts_length (t : Target) (g : TallyFields → TallyFields) (s : State) :
    (modifyFields t g s).col.foldouts.length = s.col.foldouts.length := by
  unfold modifyFields; split <;> (try split) <;> simp

theorem panelsOf_modifyFields_length (t : Target) (g : TallyFields → TallyFields) (s : State) (f : Nat) :
    ((panelsOf (modifyFields t g s) f).getD []).length = ((panelsOf s f).getD []).length := by
  unfold modifyFields
  split
  · rfl
  · split
    · rfl
    · next a n hn =>
      simp only [panelsOf, List.getElem?_modify]
      by_cases h : a = f
      · subst h
        rcases s.col.foldouts[a]? with _ | (_ | ps) <;> simp
      · simp [h]

@[simp] theorem allSides_modifyFields (t : Target) (g : TallyFields → TallyFields) (s : State) :
    allSides (modifyFields t g s) = allSides s := by simp [allSides]

@[simp] theorem allPanels_modifyFields (t : Target) (g : TallyFields → TallyFields) (s : State) :
    allPanels (modifyFields t g s) = allPanels s := by
  simp [allPanels, panelsUnder, panelsOf_modifyFields_length]

@[simp] theorem allTargets_modifyFields (t : Target) (g : TallyFields → TallyFields) (s : State) :
    allTargets (modifyFields t g s) = allTargets s := by simp [allTargets]

/-! ### The lists of targets -/

theorem mem_allSides {s : State} {t : Target} :
    t ∈ allSides s ↔ ∃ i f, t = .side i f ∧ i < s.col.leaves.length := by
  simp only [allSides, List.mem_flatMap, List.mem_range, List.mem_cons, List.not_mem_nil, or_false]
  constructor
  · rintro ⟨i, hi, rfl | rfl⟩ <;> exact ⟨_, _, rfl, hi⟩
  · rintro ⟨i, f, rfl, hi⟩; exact ⟨i, hi, by cases f <;> simp⟩

theorem mem_allPanels {s : State} {t : Target} :
    t ∈ allPanels s ↔ ∃ f n, t = .panel f n ∧ n ≠ 0 ∧ n ≤ ((panelsOf s f).getD []).length := by
  simp only [allPanels, panelsUnder, List.mem_flatMap, List.mem_range, List.mem_map]
  constructor
  · rintro ⟨f, hf, i, hi, rfl⟩; exact ⟨f, i + 1, rfl, by omega, hi⟩
  · rintro ⟨f, n, rfl, h0, hn⟩
    refine ⟨f, ?_, n - 1, by omega, by simp; omega⟩
    by_contra hf
    simp [panelsOf, List.getElem?_eq_none (Nat.not_lt.mp hf)] at hn
    exact h0 hn

/-- The targets of the collation are those that have tally fields. -/
theorem fieldsOf_isSome_iff {s : State} {t : Target} : (fieldsOf s t).isSome ↔ t ∈ allTargets s := by
  simp only [allTargets, List.mem_append, mem_allSides, mem_allPanels]
  cases t with
  | side i f => simp [fieldsOf]
  | panel f n =>
    have e : (fieldsOf s (.panel f n)).isSome ↔ n ≠ 0 ∧ n ≤ ((panelsOf s f).getD []).length := by
      simp only [fieldsOf, Option.isSome_map]
      rcases panelsOf s f with _ | ps
      · simp
      · by_cases hn : n = 0
        · simp [hn]
        · simp [hn]; omega
    rw [e]
    constructor
    · exact fun h => .inr ⟨f, n, rfl, h⟩
    · rintro (⟨_, _, h, -⟩ | ⟨_, _, h, h'⟩)
      · cases h
      · cases h; exact h'

theorem allSides_nodup (s : State) : (allSides s).Nodup := by
  rw [allSides, List.nodup_flatMap]
  refine ⟨fun i _ => by simp, ?_⟩
  refine (List.nodup_range).imp ?_
  intro a b hab
  simp only [Function.onFun, List.Disjoint]
  intro x hx hy
  simp only [List.mem_cons, List.not_mem_nil, or_false] at hx hy
  rcases hx with rfl | rfl <;> rcases hy with h | h <;> simp_all

theorem allPanels_nodup (s : State) : (allPanels s).Nodup := by
  rw [allPanels, panelsUnder, List.nodup_flatMap]
  refine ⟨fun f _ => ?_, ?_⟩
  · refine List.Nodup.map ?_ List.nodup_range
    intro a b h; simpa using h
  · refine (List.nodup_range).imp ?_
    intro a b hab
    simp only [Function.onFun, List.Disjoint]
    intro x hx hy
    simp only [List.mem_map] at hx hy
    obtain ⟨i, -, rfl⟩ := hx
    obtain ⟨j, -, h⟩ := hy
    simp only [Target.panel.injEq] at h
    exact hab h.1.symm

theorem allTargets_nodup (s : State) : (allTargets s).Nodup := by
  rw [allTargets, List.nodup_append]
  refine ⟨allSides_nodup s, allPanels_nodup s, ?_⟩
  intro a ha b hb h
  subst h
  obtain ⟨i, f, rfl, -⟩ := mem_allSides.mp ha
  obtain ⟨f', n, h, -⟩ := mem_allPanels.mp hb
  cases h

/-! ### Counting states -/

theorem Counts.get_set (c : Counts) (a b : TState) (n : Nat) : (c.set a n).get b = if b = a then n else c.get b := by
  cases a <;> cases b <;> rfl

theorem Counts.ext_get {c d : Counts} (h : ∀ a, c.get a = d.get a) : c = d := by
  have := h .pending; have := h .captured; have := h .rejected; have := h .withheld
  have := h .suppressed; have := h .skipped; have := h .absent
  cases c; cases d; simp_all [Counts.get]

theorem Counts.get_add1 (c : Counts) (a b : TState) : (c.add1 a).get b = c.get b + if b = a then 1 else 0 := by
  simp only [Counts.add1, Counts.get_set]; split <;> simp_all

theorem Counts.get_sub1 (c : Counts) (a b : TState) : (c.sub1 a).get b = c.get b - if b = a then 1 else 0 := by
  simp only [Counts.sub1, Counts.get_set]; split <;> simp_all

theorem foldl_add1_get (l : List TState) (c : Counts) (a : TState) :
    (l.foldl Counts.add1 c).get a = c.get a + l.count a := by
  induction l generalizing c with
  | nil => simp
  | cons x xs ih =>
    rw [List.foldl_cons, ih, Counts.get_add1, List.count_cons]
    by_cases h : a = x
    · subst h; simp +arith
    · have : (x == a) = false := by simp [Ne.symm h]
      simp [h, this]

/-- A counter of a list of states is the number of times the state stands in it. -/
theorem countStates_get (l : List TState) (a : TState) : (countStates l).get a = l.count a := by
  rw [countStates, foldl_add1_get]; cases a <;> simp [Counts.get, Counts.zero]

theorem Counts.total_eq (c : Counts) :
    c.total = c.get .pending + c.get .captured + c.get .rejected + c.get .withheld + c.get .suppressed +
      c.get .skipped + c.get .absent := rfl

theorem total_add1 (c : Counts) (a : TState) : (c.add1 a).total = c.total + 1 := by
  cases a <;> simp [Counts.add1, Counts.set, Counts.get, Counts.total] <;> omega

/-- The counters sum to the length of the list they count. -/
theorem countStates_total (l : List TState) : (countStates l).total = l.length := by
  suffices ∀ c : Counts, (l.foldl Counts.add1 c).total = c.total + l.length by
    simpa [Counts.total, Counts.zero, countStates] using this .zero
  induction l with
  | nil => simp
  | cons x xs ih => intro c; rw [List.foldl_cons, ih, total_add1]; simp; omega

/-- A state replaced in a list moves one count. -/
theorem countStates_shift (as bs : List TState) (before after : TState) :
    countStates (as ++ after :: bs) = (countStates (as ++ before :: bs)).shift before after := by
  refine Counts.ext_get fun a => ?_
  simp only [Counts.shift, Counts.get_add1, Counts.get_sub1, countStates_get, List.count_append, List.count_cons]
  by_cases h1 : a = before
  · subst h1
    by_cases h2 : a = after
    · subst h2; simp; omega
    · have : (after == a) = false := by simp [Ne.symm h2]
      simp [h2, this]
  · have e1 : (before == a) = false := by simp [Ne.symm h1]
    by_cases h2 : a = after
    · subst h2; simp [e1, h1]; omega
    · have : (after == a) = false := by simp [Ne.symm h2]
      simp [h1, h2, e1, this]

/-! ### One change of state -/

theorem stateOf_modifyFields (s : State) (t u : Target) (g : TallyFields → TallyFields) :
    stateOf (modifyFields t g s) u = if u = t then (fieldsOf s t).map fun q => (g q).state else stateOf s u := by
  simp only [stateOf, fieldsOf_modifyFields]
  split
  · cases fieldsOf s t <;> rfl
  · rfl

theorem doseOf_modifyFields (s : State) (t u : Target) (g : TallyFields → TallyFields) :
    doseOf (modifyFields t g s) u =
      if u = t then ((fieldsOf s t).map fun q => (g q).dose).getD 0 else doseOf s u := by
  simp only [doseOf, fieldsOf_modifyFields]
  split
  · cases fieldsOf s t <;> rfl
  · rfl

/-- A change that keeps the state keeps every state. -/
theorem stateOf_modify_keep {s : State} {t : Target} {g : TallyFields → TallyFields}
    (hg : ∀ q, (g q).state = q.state) : stateOf (modifyFields t g s) = stateOf s := by
  funext u
  rw [stateOf_modifyFields]
  split
  · next h => subst h; simp only [stateOf, hg]
  · rfl

/-- A change that keeps the dose keeps every dose. -/
theorem doseOf_modify_keep {s : State} {t : Target} {g : TallyFields → TallyFields}
    (hg : ∀ q, (g q).dose = q.dose) : doseOf (modifyFields t g s) = doseOf s := by
  funext u
  rw [doseOf_modifyFields]
  split
  · next h => subst h; simp only [doseOf, hg]
  · rfl

/-- Filtering states over a list whose one element changes state. -/
theorem filterMap_stateOf_change {s s' : State} {l : List Target} {t : Target} {before after : TState}
    (hn : l.Nodup) (ht : t ∈ l) (hb : stateOf s t = some before) (ha : stateOf s' t = some after)
    (ho : ∀ u, u ≠ t → stateOf s' u = stateOf s u) :
    ∃ as bs, l.filterMap (stateOf s) = as ++ before :: bs ∧ l.filterMap (stateOf s') = as ++ after :: bs := by
  obtain ⟨xs, ys, rfl⟩ := List.append_of_mem ht
  have hx : ∀ u ∈ xs, u ≠ t := by
    intro u hu h; subst h
    simp [List.nodup_append] at hn
    exact (hn.2.2 u hu).1 rfl
  have hy : ∀ u ∈ ys, u ≠ t := by
    intro u hu h; subst h
    simp [List.nodup_append] at hn
    exact hn.2.1.1 hu
  refine ⟨xs.filterMap (stateOf s), ys.filterMap (stateOf s), by simp [hb], ?_⟩
  rw [List.filterMap_append, List.filterMap_cons_some ha]
  congr 1
  · exact List.filterMap_congr fun u hu => ho u (hx u hu)
  · congr 1
    exact List.filterMap_congr fun u hu => ho u (hy u hu)

theorem filterMap_stateOf_other {s s' : State} {l : List Target} {t : Target}
    (ht : t ∉ l) (ho : ∀ u, u ≠ t → stateOf s' u = stateOf s u) :
    l.filterMap (stateOf s') = l.filterMap (stateOf s) :=
  List.filterMap_congr fun u hu => ho u fun h => ht (h ▸ hu)

@[simp] theorem moveCount_col (t : Target) (a b : TState) (s : State) : (moveCount t a b s).col = s.col := by
  cases t <;> rfl

@[simp] theorem stateOf_moveCount (t : Target) (a b : TState) (s : State) : stateOf (moveCount t a b s) = stateOf s := by
  cases t <;> rfl

theorem stateOf_changeState (s : State) (t u : Target) (a b : TState) :
    stateOf (changeState t a b s) u = if u = t then (stateOf s t).map fun _ => b else stateOf s u := by
  rw [changeState, stateOf_moveCount, stateOf_modifyFields]
  split
  · simp only [stateOf]; cases fieldsOf s t <;> rfl
  · rfl

theorem allSides_congr {s s' : State} (h : s'.col.leaves.length = s.col.leaves.length) : allSides s' = allSides s := by
  simp [allSides, h]

theorem allPanels_col {s s' : State} (h : s'.col = s.col) : allPanels s' = allPanels s := by
  simp [allPanels, panelsUnder, panelsOf, h]

theorem stateOf_col {s s' : State} (h : s'.col = s.col) : stateOf s' = stateOf s := by
  funext t; cases t <;> simp [stateOf, fieldsOf, panelsOf, h]

theorem doseOf_col {s s' : State} (h : s'.col = s.col) : doseOf s' = doseOf s := by
  funext t; cases t <;> simp [doseOf, fieldsOf, panelsOf, h]

/-- A change of state keeps the law of the counters: its target is in the state it leaves (07 R137). -/
theorem changeState_counters {s : State} {t : Target} {a b : TState} (h : stateOf s t = some a)
    (hs : s.tally.sideCounts = countStates (sideStates s)) (hp : s.tally.panelCounts = countStates (panelStates s)) :
    (changeState t a b s).tally.sideCounts = countStates (sideStates (changeState t a b s)) ∧
    (changeState t a b s).tally.panelCounts = countStates (panelStates (changeState t a b s)) := by
  have hmem : t ∈ allTargets s := by
    rw [← fieldsOf_isSome_iff]
    unfold stateOf at h
    cases hf : fieldsOf s t <;> simp_all
  have ha : stateOf (changeState t a b s) t = some b := by simp [stateOf_changeState, h]
  have ho : ∀ u, u ≠ t → stateOf (changeState t a b s) u = stateOf s u := fun u hu => by
    simp [stateOf_changeState, hu]
  have es : allSides (changeState t a b s) = allSides s := by
    rw [changeState, allSides_congr (s := modifyFields t ({ · with state := b }) s) (by simp)]; simp
  have ep : allPanels (changeState t a b s) = allPanels s := by
    rw [changeState, allPanels_col (s := modifyFields t ({ · with state := b }) s) (by simp)]; simp
  simp only [sideStates, panelStates, es, ep] at hs hp ⊢
  have keepc : (modifyFields t ({ · with state := b }) s).tally = s.tally := by
    unfold modifyFields; split <;> (try split) <;> rfl
  rcases List.mem_append.mp hmem with hside | hpanel
  · have hnp : t ∉ allPanels s := by
      intro hc
      obtain ⟨i, f, rfl, -⟩ := mem_allSides.mp hside
      obtain ⟨f', n, h', -⟩ := mem_allPanels.mp hc
      cases h'
    obtain ⟨as, bs, e1, e2⟩ := filterMap_stateOf_change (allSides_nodup s) hside h ha ho
    rw [e2, filterMap_stateOf_other hnp ho, countStates_shift as bs a b, ← e1, ← hs, ← hp]
    obtain ⟨i, f, rfl, -⟩ := mem_allSides.mp hside
    simp only [changeState, moveCount, keepc, and_self]
  · have hns : t ∉ allSides s := by
      intro hc
      obtain ⟨i, f, rfl, -⟩ := mem_allSides.mp hc
      obtain ⟨f', n, h', -⟩ := mem_allPanels.mp hpanel
      cases h'
    obtain ⟨as, bs, e1, e2⟩ := filterMap_stateOf_change (allPanels_nodup s) hpanel h ha ho
    rw [e2, filterMap_stateOf_other hns ho, countStates_shift as bs a b, ← e1, ← hs, ← hp]
    obtain ⟨f, n, rfl, -⟩ := mem_allPanels.mp hpanel
    simp only [changeState, moveCount, keepc, and_self]

/-! ### Charging -/

/-- The sum over a list without duplicates of a figure that changes at one member. -/
theorem sum_map_change {l : List Target} {t : Target} {f g : Target → Nat} {n : Nat} (hn : l.Nodup) (ht : t ∈ l)
    (h : g t = f t + n) (ho : ∀ u, u ≠ t → g u = f u) : (l.map g).sum = (l.map f).sum + n := by
  obtain ⟨xs, ys, rfl⟩ := List.append_of_mem ht
  have hx : ∀ u ∈ xs, u ≠ t := by
    intro u hu h; subst h
    simp [List.nodup_append] at hn
    exact (hn.2.2 u hu).1 rfl
  have hy : ∀ u ∈ ys, u ≠ t := by
    intro u hu h; subst h
    simp [List.nodup_append] at hn
    exact hn.2.1.1 hu
  rw [List.map_append, List.map_append, List.map_cons, List.map_cons,
    List.map_congr_left fun u hu => ho u (hx u hu), List.map_congr_left fun u hu => ho u (hy u hu)]
  simp only [List.sum_append, List.sum_cons, h]
  omega

/-- The doses after a charge: the target's rises by the amount when the collation holds it (04 R80). -/
theorem doseOf_charge (s : State) (t u : Target) (n : Nat) :
    doseOf (charge t n s) u = if u = t ∧ (fieldsOf s t).isSome then doseOf s t + n else doseOf s u := by
  unfold charge
  split
  · next h =>
    have e : ∀ v, doseOf { modifyFields t (fun q => { q with dose := q.dose + n }) s with
        dose := { (modifyFields t (fun q => { q with dose := q.dose + n }) s).dose with
          volDose := (modifyFields t (fun q => { q with dose := q.dose + n }) s).dose.volDose + n } } v =
        doseOf (modifyFields t (fun q => { q with dose := q.dose + n }) s) v := fun v => by
      rw [doseOf_col]; rfl
    simp only [e, doseOf_modifyFields, h, and_true]
    split
    · simp only [doseOf]
      cases hf : fieldsOf s t <;> simp_all
    · rfl
  · next h => simp [h]

theorem volDose_charge (s : State) (t : Target) (n : Nat) :
    (charge t n s).dose.volDose = s.dose.volDose + if (fieldsOf s t).isSome then n else 0 := by
  unfold charge
  split
  · unfold modifyFields; split <;> (try split) <;> rfl
  · simp

/-- A charge moves the volume dose and the sum of the doses together (04 R80). -/
theorem doseSum_charge (s : State) (t : Target) (n : Nat) :
    doseSum (charge t n s) = doseSum s + if (fieldsOf s t).isSome then n else 0 := by
  have ea : allTargets (charge t n s) = allTargets s := by
    unfold charge
    split
    · exact (by simp [allTargets, allSides, allPanels, panelsUnder, panelsOf] :
        allTargets { modifyFields t (fun q => { q with dose := q.dose + n }) s with
          dose := { (modifyFields t (fun q => { q with dose := q.dose + n }) s).dose with
            volDose := (modifyFields t (fun q => { q with dose := q.dose + n }) s).dose.volDose + n } } =
        allTargets (modifyFields t (fun q => { q with dose := q.dose + n }) s)).trans (by simp)
    · rfl
  unfold doseSum
  rw [ea]
  by_cases h : (fieldsOf s t).isSome
  · rw [if_pos h]
    refine sum_map_change (allTargets_nodup s) (fieldsOf_isSome_iff.mp h) ?_ ?_
    · simp [doseOf_charge, h]
    · intro u hu; simp [doseOf_charge, hu]
  · rw [if_neg h]
    simp only [Nat.add_zero]
    congr 1
    exact List.map_congr_left fun u _ => by simp [doseOf_charge, h]

end Sys2Proof.Machine
end

