-- ==== Sys2Proof/Laws/Moves.lean ====
section
/-! SUPPORT. Everything a command can do to the state, said once. `Does L s t`: `t` comes from `s` by changes each of
which is one of the constructors below, with what the part has tested when it makes it. A law of Safety.lean is kept
by every command if each constructor keeps it. `L` says whether the link may change: `Does False` leaves it alone. -/

namespace Sys2Proof.Machine

/-- The changes that lead from `s` to a state; the link changes only where `L` holds. -/
inductive Does (L : Prop) (s : State) : State → Prop
  | refl : Does L s s
  | seq {t} (h : Does L s t) (q : Sequencer) : Does L s (t.setSeq q)
  | chan {t} (h : Does L s t) (b : Side) (c : Channel) : Does L s (t.setChan b c)
  | port {t} (h : Does L s t) (b : Side) (p : Port) (ok : (t.port b).law → p.law) : Does L s (t.setPort b p)
  | lamps {t} (h : Does L s t) (l : Lamps) (ok : lampsLaw t.lamps → lampsLaw l := by exact fun k => k) :
      Does L s { t with lamps := l }
  | pins {t} (h : Does L s t) (p : Pins) : Does L s { t with pins := p }
  | raised {t} (h : Does L s t) (src : Source) (d : List Slot) : Does L s (raise src d t)
  | marked {t} (h : Does L s t) (i : Nat) (e : eligible t i = true) : Does L s (markSent i t)
  | cleared {t} (h : Does L s t) (w : Slot) : Does L s (clearSources w t)
  | master {t} (h : Does L s t) (m : Bool) : Does L s { t with notices := { t.notices with master := m } }
  | settled {t} (h : Does L s t) (x : Target) (after : TState) (was : stateOf t x = some .pending)
      (n : after ≠ .pending) : Does L s (dropRetake x (changeState x .pending after t))
  | unsettled {t} (h : Does L s t) (x : Target) (before : TState) (was : stateOf t x = some before)
      (n : before ≠ .pending) : Does L s (changeState x before .pending t)
  | retaken {t} (h : Does L s t) (i : Nat) (f : Face) (before : TState) (was : stateOf t (.side i f) = some before)
      (n : before ≠ .pending) (room : t.tally.retakes.length < 128) (vol : volumeActive t) :
      Does L s (retakeSide i f t)
  | fields {t} (h : Does L s t) (x : Target) (g : TallyFields → TallyFields)
      (keep : ∀ q, (g q).state = q.state ∧ (g q).dose = q.dose) : Does L s (modifyFields x g t)
  | charged {t} (h : Does L s t) (x : Target) (n : Nat)
      (fits : volumeActive t → doseOf t x ≤ (doseLimits t).side → t.dose.volDose ≤ (doseLimits t).volume →
        doseOf t x + n ≤ (doseLimits t).side ∧ t.dose.volDose + n ≤ (doseLimits t).volume) : Does L s (charge x n t)
  | volState {t} (h : Does L s t) (v : VolState) (was : volumeActive t) (now : v = .scanning ∨ v = .paused ∨ v = .closed) :
      Does L s (setVolState v t)
  | clock {t} (h : Does L s t) (c : Nat) (r : Bool) (m : Nat) (cl : Option Closure) :
      Does L s { t with tally := { t.tally with clock := c, clockRuns := r, clockMs := m, closure := cl } }
  | lock {t} (h : Does L s t) (d : Dose) (v : d.volDose = t.dose.volDose)
      (ok : lockLaw t → lockLaw { t with dose := d }) : Does L s { t with dose := d }
  | link {t} (h : Does L s t) (loud : L) (l : Link) (ok : linkLaw t.link → linkLaw l) (up : l.up = true → t.link.up = true) :
      Does L s { t with link := l }
  | linkUp {t} (h : Does L s t) (loud : L) (r : t.start = .running) :
      Does L s { t with link := { t.link with up := true, lock := true } }
  | firstUp {t} (h : Does L s t) (loud : L) (a : t.start = .awaitLink) :
      Does L s { t with start := .running, link := { t.link with up := true, lock := true } }
  | settings {t} (h : Does L s t) (q : Settings) (ok : t.settings.law → q.law)
      (lim : q.limits = t.settings.limits ∨ t.col.volState = .empty ∨ t.col.volState = .closed) :
      Does L s { t with settings := q }
  | recalled {t} (h : Does L s t) (r : t.store.state = .recalling) : Does L s { t with settings := t.store.image }
  | store {t} (h : Does L s t) (q : Store) (img : settingsLaw t → q.image.law)
      (rc : q.state = .recalling → t.store.state = .recalling ∨ t.col.volState = .empty ∨ t.col.volState = .closed) :
      Does L s { t with store := q }
  | loaded {t} (h : Does L s t) (c : Collation) (l : t.col.volState = .loading) (vs : c.volState = .loading)
      (vol : c.volume = t.col.volume)
      (len : t.col.leaves.length = leafCount t → c.leaves.length = leafCount t) : Does L s { t with col := c }
  | amended {t} (h : Does L s t) (i : Nat) (g : LeafRecord → LeafRecord)
      (keep : ∀ l, (g l).recto = l.recto ∧ (g l).verso = l.verso) : Does L s (modifyLeaf i g t)
  | readied {t} (h : Does L s t) (l : t.col.volState = .loading) : Does L s (makeReady t)
  | opened {t} (h : Does L s t) (v : VolumeRecord) (up : t.link.up = true) (idle : t.store.state ≠ .recalling)
      (fits : v.priorDose.getD 0 ≤ (t.settings.limits.getD v.doseClass ⟨0, 0⟩).volume) : Does L s (openWith v t)
  | ended {t} (h : Does L s t) : Does L s (endVolume t)
  | reset {t} (h : Does L s t) (loud : L) (c : ResetCause) : Does L s (resetAll c t)
  | released {t} (h : Does L s t) (held : t.start = .held) : Does L s (releaseReset t)
  | startup {t} (h : Does L s t) (r : t.start = .recall) (q : Settings) (ok : q = t.store.image ∨ q = .factory) :
      Does L s { t with settings := q, start := .awaitLink, store := { t.store with state := .idle, elapsed := 0 } }

/-! ### What the tally's changes leave alone -/

/-- A change of tally fields changes the collation only. -/
theorem modifyFields_rest (x : Target) (g : TallyFields → TallyFields) (t : State) :
    modifyFields x g t = { t with col := (modifyFields x g t).col } := by
  cases x
  · rfl
  · simp only [modifyFields]; split <;> rfl

/-- A change of state changes the collation and the tally only. -/
theorem changeState_rest (x : Target) (a b : TState) (t : State) :
    changeState x a b t = { t with col := (changeState x a b t).col, tally := (changeState x a b t).tally } := by
  unfold changeState
  rw [modifyFields_rest]
  cases x <;> rfl

theorem dropRetake_rest (x : Target) (t : State) : dropRetake x t = { t with tally := (dropRetake x t).tally } := by
  cases x <;> rfl

theorem unsettle_rest (x : Target) (t : State) :
    unsettle x t = { t with col := (unsettle x t).col, tally := (unsettle x t).tally } := by
  unfold unsettle
  split
  · split
    · rfl
    · rw [← changeState_rest]
  · rfl

/-- A charge changes the collation and the dose meter only. -/
theorem charge_rest (x : Target) (n : Nat) (t : State) :
    charge x n t = { t with col := (charge x n t).col, dose := (charge x n t).dose } := by
  unfold charge
  split
  · dsimp only; rw [modifyFields_rest]
  · rfl

theorem modifyFields_link (x : Target) (g : TallyFields → TallyFields) (t : State) : (modifyFields x g t).link = t.link := by
  rw [modifyFields_rest]

theorem modifyFields_shape (x : Target) (g : TallyFields → TallyFields) (t : State) :
    (modifyFields x g t).col.volState = t.col.volState ∧ (modifyFields x g t).col.volume = t.col.volume ∧
    (modifyFields x g t).col.leaves.length = t.col.leaves.length := by
  refine ⟨?_, ?_, by simp⟩ <;>
  · cases x
    · rfl
    · simp only [modifyFields]; split <;> rfl

/-- The retake list without an entry, and the counters as they are. -/
theorem dropRetake_tally (x : Target) (t : State) :
    (dropRetake x t).col = t.col ∧ (dropRetake x t).tally.sideCounts = t.tally.sideCounts ∧
    (dropRetake x t).tally.panelCounts = t.tally.panelCounts := by
  cases x <;> exact ⟨rfl, rfl, rfl⟩

theorem changeState_retakes (x : Target) (a b : TState) (t : State) :
    (changeState x a b t).tally.retakes = t.tally.retakes := by
  unfold changeState
  rw [modifyFields_rest]
  cases x <;> rfl

/-- Leaf records whose sides' fields stay keep every target's fields. -/
theorem fieldsOf_modifyLeaf (t : State) (i : Nat) {g : LeafRecord → LeafRecord}
    (keep : ∀ l, (g l).recto = l.recto ∧ (g l).verso = l.verso) : fieldsOf (modifyLeaf i g t) = fieldsOf t := by
  funext x
  cases x with
  | panel => rfl
  | side leaf f =>
    simp only [fieldsOf, modifyLeaf, List.getElem?_modify]
    cases t.col.leaves[leaf]? with
    | none => rfl
    | some l =>
      simp only [Option.map_some]
      split
      · cases f
        · exact congrArg some (keep l).1
        · exact congrArg some (keep l).2
      · rfl

namespace Does

theorem trans {L : Prop} {s t u : State} (h : Does L s t) (k : Does L t u) : Does L s u := by
  induction k with
  | refl => exact h
  | seq _ q ih => exact ih.seq q
  | chan _ b c ih => exact ih.chan b c
  | port _ b p ok ih => exact ih.port b p ok
  | lamps _ l ok ih => exact ih.lamps l ok
  | pins _ p ih => exact ih.pins p
  | raised _ src d ih => exact ih.raised src d
  | marked _ i e ih => exact ih.marked i e
  | cleared _ w ih => exact ih.cleared w
  | master _ m ih => exact ih.master m
  | settled _ x a w n ih => exact ih.settled x a w n
  | unsettled _ x b w n ih => exact ih.unsettled x b w n
  | retaken _ i f b w n r v ih => exact ih.retaken i f b w n r v
  | fields _ x g k ih => exact ih.fields x g k
  | charged _ x n f ih => exact ih.charged x n f
  | volState _ v w t ih => exact ih.volState v w t
  | clock _ c r m cl ih => exact ih.clock c r m cl
  | lock _ d v ok ih => exact ih.lock d v ok
  | link _ loud l ok up ih => exact ih.link loud l ok up
  | linkUp _ loud r ih => exact ih.linkUp loud r
  | firstUp _ loud a ih => exact ih.firstUp loud a
  | settings _ q ok lim ih => exact ih.settings q ok lim
  | recalled _ r ih => exact ih.recalled r
  | store _ q img rc ih => exact ih.store q img rc
  | loaded _ c l vs vol len ih => exact ih.loaded c l vs vol len
  | amended _ i g k ih => exact ih.amended i g k
  | readied _ l ih => exact ih.readied l
  | opened _ v up i f ih => exact ih.opened v up i f
  | ended _ ih => exact ih.ended
  | reset _ loud c ih => exact ih.reset loud c
  | released _ held ih => exact ih.released held
  | startup _ r q ok ih => exact ih.startup r q ok

/-- What never reaches the link leaves it as it is. -/
theorem link_eq {s t : State} (h : Does False s t) : t.link = s.link := by
  induction h with
  | link _ loud | linkUp _ loud | firstUp _ loud | reset _ loud => exact loud.elim
  | settled _ x a w n ih => rw [← ih]; cases x <;> simp [dropRetake, changeState, moveCount, modifyFields_link]
  | unsettled _ x b w n ih => rw [← ih]; cases x <;> simp [changeState, moveCount, modifyFields_link]
  | retaken _ i f b w n r v ih =>
    rw [← ih]; simp only [retakeSide, unsettle]
    split
    · split <;> simp [changeState, moveCount, modifyFields_link]
    · rfl
  | fields _ x g k ih => rw [← ih]; exact modifyFields_link x g _
  | charged _ x n f ih => rw [← ih]; unfold charge; split <;> simp [modifyFields_link]
  | released _ held ih => rw [← ih]; unfold releaseReset; split <;> rfl
  | refl => rfl
  | _ => simp_all [markSent, clearSources, modifyLeaf, makeReady, openWith, endVolume]

/-- What leaves the link alone is also something that may change it. -/
theorem quiet {L : Prop} {s t : State} (h : Does False s t) : Does L s t := by
  induction h with
  | link _ loud | linkUp _ loud | firstUp _ loud | reset _ loud => exact loud.elim
  | refl => exact .refl
  | seq _ q ih => exact ih.seq q
  | chan _ b c ih => exact ih.chan b c
  | port _ b p ok ih => exact ih.port b p ok
  | lamps _ l ok ih => exact ih.lamps l ok
  | pins _ p ih => exact ih.pins p
  | raised _ src d ih => exact ih.raised src d
  | marked _ i e ih => exact ih.marked i e
  | cleared _ w ih => exact ih.cleared w
  | master _ m ih => exact ih.master m
  | settled _ x a w n ih => exact ih.settled x a w n
  | unsettled _ x b w n ih => exact ih.unsettled x b w n
  | retaken _ i f b w n r v ih => exact ih.retaken i f b w n r v
  | fields _ x g k ih => exact ih.fields x g k
  | charged _ x n f ih => exact ih.charged x n f
  | volState _ v w t ih => exact ih.volState v w t
  | clock _ c r m cl ih => exact ih.clock c r m cl
  | lock _ d v ok ih => exact ih.lock d v ok
  | settings _ q ok lim ih => exact ih.settings q ok lim
  | recalled _ r ih => exact ih.recalled r
  | store _ q img rc ih => exact ih.store q img rc
  | loaded _ c l vs vol len ih => exact ih.loaded c l vs vol len
  | amended _ i g k ih => exact ih.amended i g k
  | readied _ l ih => exact ih.readied l
  | opened _ v up i f ih => exact ih.opened v up i f
  | ended _ ih => exact ih.ended
  | released _ held ih => exact ih.released held
  | startup _ r q ok ih => exact ih.startup r q ok

end Does

variable {L : Prop} {s t : State}

/-- Either arm of a test. -/
theorem ite_does {p : Prop} [Decidable p] {a b : State} (ha : Does L s a) (hb : Does L s b) :
    Does L s (if p then a else b) := by
  split
  · exact ha
  · exact hb

/-! ### Ops -/

theorem setOutputs_does (h : Does L s t) (o : Outputs) : Does L s (t.setOutputs o) := h.seq _

theorem reseat_does (h : Does L s t) (q : Sequencer) : Does L s (reseat q t) := (h.seq q).lamps _

theorem markSettledHere_does (h : Does L s t) (x : Target) : Does L s (markSettledHere x t) := by
  unfold markSettledHere; split
  · exact h.seq _
  · exact h

theorem settle_does (h : Does L s t) (x : Target) {a : TState} (n : a ≠ .pending) : Does L s (settle x a t) := by
  unfold settle; split
  · next hp => exact markSettledHere_does (h.settled x a (by simpa [isPending] using hp) n) x
  · exact h

theorem settleAll_does (xs : List Target) {a : TState} (n : a ≠ .pending) :
    ∀ {t : State}, Does L s t → Does L s (settleAll xs a t) := by
  induction xs with
  | nil => exact fun h => h
  | cons x xs ih => exact fun h => ih (settle_does h x n)

theorem unsettle_does (h : Does L s t) (x : Target) : Does L s (unsettle x t) := by
  unfold unsettle; split
  · split
    · exact h
    · next hb hn => exact h.unsettled x _ hb hn
  · exact h

theorem reOffer_does (h : Does L s t) (f : Nat) : Does L s (reOffer f t) := by
  unfold reOffer
  generalize panelsUnder t (coveredFoldouts t f) = xs
  induction xs generalizing t with
  | nil => exact h
  | cons x xs ih =>
    refine ih ?_
    dsimp only
    split
    · exact unsettle_does h x
    · exact h

theorem reportTake_does (h : Does L s t) (x : Target) : Does L s (reportTake x t) := h.fields x _ fun _ => ⟨rfl, rfl⟩

theorem reportAccepted_does (h : Does L s t) (x : Target) : Does L s (reportAccepted x t) :=
  h.fields x _ fun _ => ⟨rfl, rfl⟩

theorem restartDark_does (h : Does L s t) : Does L s (restartDark t) := h.lamps _

theorem unlessHeld_does {f : State → State} (h : Does L s t) (hf : ∀ {u}, Does L s u → Does L s (f u)) :
    Does L s (unlessHeld t f) := by
  unfold unlessHeld; split
  · exact h
  · exact hf h

/-! ### Ports -/

theorem Port.law_mapArmed {p : Port} (h : p.law) (f : Header → Header) : (p.mapArmed f).law := by
  obtain ⟨h1, h2⟩ := h
  refine ⟨?_, h2⟩
  unfold Port.shape Port.mapArmed at *
  cases hs : p.state <;> simp_all [markersQueued]

theorem Port.law_takeBack {p : Port} (h : p.law) : p.takeBack.law := by
  unfold Port.takeBack
  split
  · exact h
  · next hs =>
    obtain ⟨h1, h2⟩ := h
    refine ⟨?_, h2⟩
    simp_all [Port.shape]
  · next hs =>
    split
    · obtain ⟨h1, h2⟩ := h
      refine ⟨?_, h2⟩
      simp_all [Port.shape, markersQueued]
    · exact Port.law_mapArmed h _

theorem Port.law_complete {p : Port} {g : GateFigures} (n : Nat) (u : Bool) (h : p.law) : (p.complete g n u).law := by
  unfold Port.complete
  split
  · exact h
  · exact Port.law_mapArmed h _
  · exact Port.law_mapArmed h _

theorem Port.law_platenRose {p : Port} (h : p.law) : p.platenRose.law := by
  unfold Port.platenRose
  split
  · exact h
  · exact Port.law_mapArmed h _
  · next hs =>
    split
    · obtain ⟨h1, h2⟩ := h
      refine ⟨?_, h2⟩
      simp_all [Port.shape, markersQueued]
    · exact h

theorem Port.law_discard {p : Port} (h : p.law) : p.discard.law := by
  have h' := Port.law_mapArmed h Header.abandon
  obtain ⟨h1, h2⟩ := h'
  refine ⟨?_, h2⟩
  unfold Port.discard Port.shape at *
  revert h1
  cases hs : p.state <;> simp_all [Port.mapArmed, markersQueued]

/-- Both ports changed by a function that keeps the law. -/
theorem ports_does (h : Does L s t) {f : Port → Port} (ok : ∀ {p : Port}, p.law → (f p).law) :
    Does L s { t with ports := ⟨f t.ports.left, f t.ports.right⟩ } :=
  (h.port .left (f t.ports.left) ok).port .right (f t.ports.right) ok

theorem platenRose_does (h : Does L s t) : Does L s (platenRose t) := ports_does h Port.law_platenRose

/-! ### Channels -/

theorem settleChannel_does (h : Does L s t) (b : Side) {a : TState} (n : a ≠ .pending) : Does L s (settleChannel b a t) := by
  unfold settleChannel; split
  · exact h
  · exact (settle_does h _ n).chan _ _

theorem handHeader_does (h : Does L s t) (b : Side) (x : Header) : Does L s (handHeader b x t) := by
  unfold handHeader
  dsimp only
  split
  · next hs =>
    refine (h.port b _ ?_).chan _ _
    rintro ⟨h1, h2⟩
    exact ⟨by simp_all [Port.shape], h2⟩
  · next hs =>
    refine (h.port b _ ?_).chan _ _
    rintro ⟨h1, h2⟩
    exact ⟨by simp_all [Port.shape], h2⟩
  · next hs =>
    refine (h.port b _ ?_).chan _ _
    rintro ⟨h1, h2⟩
    exact ⟨by simp_all [Port.shape, markersQueued], h2⟩

theorem arm_does (h : Does L s t) (b : Side) : Does L s (arm b t) := by
  unfold arm
  split
  · exact h
  · dsimp only
    split
    · exact settleChannel_does h b (by simp)
    · exact handHeader_does (h.chan _ _) b _

theorem takeUp_does (h : Does L s t) (b : Side) (x : Target) : Does L s (takeUp b x t) := arm_does (h.chan _ _) b

theorem offer_does (h : Does L s t) (b : Side) : Does L s (offer b t) := by
  unfold offer
  split
  · split
    · split
      · exact arm_does h b
      · exact h.chan _ _
    · split
      · split
        · exact takeUp_does h b _
        · exact h
      · exact h
    · split
      · split
        · exact takeUp_does h b _
        · exact h
      · exact h
    · exact h
  · exact h

theorem offerBoth_does (h : Does L s t) : Does L s (offerBoth t) := offer_does (offer_does h .left) .right

theorem betweenShots_does (h : Does L s t) (b : Side) : Does L s (betweenShots b t) := h.chan _ _

theorem acceptShot_does (h : Does L s t) (b : Side) : Does L s (acceptShot b t) := by
  unfold acceptShot
  split
  · exact h
  · next x _ =>
    have k := (betweenShots_does (reportAccepted_does h x) b).chan b
    dsimp only
    split
    · exact settleChannel_does (k _) b (by simp)
    · exact k _

theorem rejectShot_does (h : Does L s t) (b : Side) (why : Rejection) : Does L s (rejectShot b why t) := by
  unfold rejectShot
  split
  · exact h
  · split
    · exact betweenShots_does h b
    · exact (settleChannel_does h b (by simp)).raised _ _

theorem judgeShot_does (h : Does L s t) (b : Side) (v : Verdict) : Does L s (judgeShot b v t) := by
  unfold judgeShot
  split
  · exact rejectShot_does h b _
  · split
    · exact acceptShot_does h b
    · exact h

theorem takeVerdict_does (h : Does L s t) (b : Side) (v : Verdict) : Does L s (takeVerdict b v t) := by
  unfold takeVerdict
  split
  · exact h
  · split
    · exact judgeShot_does (h.chan _ _) b v
    · exact h.chan _ _
    all_goals exact h

theorem abandonHeader_does (h : Does L s t) (b : Side) : Does L s (abandonHeader b t) :=
  h.port b _ fun k => Port.law_mapArmed k _

theorem shotCut_does (h : Does L s t) (b : Side) : Does L s (shotCut b t) := by
  unfold shotCut; split
  · exact rejectShot_does (abandonHeader_does (h.chan _ _) b) b _
  · exact h

theorem shotDone_does (h : Does L s t) (b : Side) : Does L s (shotDone b t) := by
  unfold shotDone; split
  · dsimp only
    split
    · exact judgeShot_does (h.chan _ _) b _
    · exact h.chan _ _
  · exact h

theorem setStrobe_does (h : Does L s t) (b : Side) (x : Option Strobe) : Does L s (setStrobe b x t) := h.lamps _

theorem startSlot_does (h : Does L s t) (b : Side) {i : Nat} (hi : i < 6) : Does L s (startSlot b i t) :=
  h.lamps _ fun k => ⟨k.1, by cases b <;> simp [Both.set, hi, k.2]⟩

theorem endStrobe_does (h : Does L s t) (b : Side) : Does L s (endStrobe b t) := by
  unfold endStrobe; split
  · exact shotDone_does (setStrobe_does h b none) b
  · exact h

theorem cutStrobe_does (h : Does L s t) (b : Side) : Does L s (cutStrobe b t) := by
  unfold cutStrobe; split
  · exact shotCut_does (setStrobe_does h b none) b
  · exact h

theorem expireFrame_does (h : Does L s t) (b : Side) : Does L s (expireFrame b t) := by
  unfold expireFrame
  dsimp only
  split
  · exact rejectShot_does ((h.port b _ fun k => Port.law_mapArmed k _).raised _ _) b _
  · exact h

theorem fire_does (h : Does L s t) (b : Side) (x : Target) (g : GateFigures) : Does L s (fire b x g t) := by
  unfold fire
  dsimp only
  have k := fun c n u => (((reportTake_does h x).chan b c).port b _ fun k => Port.law_complete (g := g) n u k)
  split
  · exact startSlot_does (setStrobe_does (k _ _ _) b _) b (by decide)
  · exact shotCut_does (k _ _ _) b

/-- A shot passes the gate when its dose fits both limits (04 R81). -/
theorem refusingLimit_none {x : Target} {n : Nat} : refusingLimit t x n = none ↔
    doseOf t x + n ≤ (doseLimits t).side ∧ t.dose.volDose + n ≤ (doseLimits t).volume := by
  unfold refusingLimit
  by_cases h1 : (doseLimits t).side < doseOf t x + n <;> by_cases h2 : (doseLimits t).volume < t.dose.volDose + n <;>
    (simp [h1, h2]; try omega)

theorem judgeGate_does (h : Does L s t) (b : Side) : Does L s (judgeGate b t) := by
  unfold judgeGate
  split
  · dsimp only
    split
    · next hl =>
      refine fire_does (h.charged _ _ ?_) b _ _
      exact fun _ _ _ => refusingLimit_none.mp hl
    · exact (settleChannel_does (h.port b _ Port.law_takeBack) b (by simp)).raised _ _
  · exact h

theorem withdrawChannel_does (h : Does L s t) (b : Side) : Does L s (withdrawChannel b t) := by
  unfold withdrawChannel
  split
  · exact betweenShots_does (h.port b _ Port.law_takeBack) b
  · exact betweenShots_does (h.port b _ Port.law_takeBack) b
  all_goals exact h

theorem withdrawHold_does (h : Does L s t) : Does L s (withdrawHold t) :=
  withdrawChannel_does (withdrawChannel_does (h.seq _) .left) .right

@[simp] theorem withdrawChannel_col (t : State) (b : Side) : (withdrawChannel b t).col = t.col := by
  unfold withdrawChannel
  split <;> rfl

@[simp] theorem withdrawHold_col (t : State) : (withdrawHold t).col = t.col := by
  simp [withdrawHold]

theorem endVisit_does (h : Does L s t) (b : Side) : Does L s (endVisit b t) := by
  unfold endVisit; split
  · exact h.chan _ _
  · exact h

theorem endVisits_does (h : Does L s t) : Does L s (endVisits t) := endVisit_does (endVisit_does h .left) .right

theorem discardChannel_does (h : Does L s t) (b : Side) : Does L s (discardChannel b t) := by
  unfold discardChannel
  refine Does.chan ?_ _ _
  split
  · exact h
  · exact h
  · exact h.port b _ Port.law_takeBack
  · exact h.port b _ Port.law_takeBack
  · exact abandonHeader_does (setStrobe_does h b none) b
  · exact abandonHeader_does h b

theorem linesQueued_enqueue (p : Port) (q : Burst) :
    linesQueued (p.enqueue q) = linesQueued p + if q.isLine then 1 else 0 := by
  simp [linesQueued, Port.enqueue, List.countP_append, List.countP_cons]

theorem markersQueued_enqueue (p : Port) (q : Burst) :
    markersQueued (p.enqueue q) = markersQueued p + if q.isLine then 0 else 1 := by
  cases h : q.isLine <;> simp [markersQueued, Port.enqueue, List.countP_append, h]

/-- A line at the tail of a FIFO that is not full keeps a port's law. -/
theorem Port.law_line {p : Port} {q : Burst} (h : p.law) (hq : q.isLine = true) (room : linesQueued p < 64) :
    (p.enqueue q).law := by
  obtain ⟨h1, h2, h3, h4⟩ := h
  have el := linesQueued_enqueue p q
  have em := markersQueued_enqueue p q
  simp only [hq, if_true] at el em
  refine ⟨?_, by omega, by omega, h4⟩
  unfold Port.shape at *
  rw [em]
  exact h1

/-- A trailer at the tail and the armed header let go keep a receiving port's law. -/
theorem Port.law_trailer {p : Port} (r : Trailer) (hs : p.state = .receiving) (h : p.law) :
    (p.enqueue (.trailer r)).release.law := by
  obtain ⟨h1, h2, h3, h4⟩ := h
  simp only [Port.shape, hs] at h1
  have el := linesQueued_enqueue p (.trailer r)
  have em := markersQueued_enqueue p (.trailer r)
  simp only [Burst.isLine, Bool.false_eq_true, if_false] at el em
  unfold Port.release
  split
  · refine ⟨by simp [Port.shape], ?_, ?_, h4⟩
    · show linesQueued (p.enqueue (.trailer r)) ≤ 64; omega
    · show markersQueued (p.enqueue (.trailer r)) ≤ 4; omega
  · next hw =>
    refine ⟨by simpa [Port.shape, Port.enqueue] using hw, ?_, ?_, h4⟩
    · show linesQueued (p.enqueue (.trailer r)) ≤ 64; omega
    · show markersQueued (p.enqueue (.trailer r)) ≤ 4; omega

theorem closeFrame_does (h : Does L s t) (b : Side) (c : EndCause) : Does L s (closeFrame b c t).1 := by
  unfold closeFrame
  dsimp only
  split
  · next hs _ _ =>
    dsimp only
    split
    · exact (h.port b _ (Port.law_trailer _ hs)).chan _ _
    · exact h.port b _ (Port.law_trailer _ hs)
  · exact h

theorem endFrame_does (h : Does L s t) (b : Side) (c : EndCause) : Does L s (endFrame b c t) := by
  have k := closeFrame_does h b c
  unfold endFrame
  split
  · next e => rw [e] at k; exact takeVerdict_does k b _
  · next e => rw [e] at k; exact k

theorem beginFrame_does (h : Does L s t) (b : Side) (x : Header) (room : markersQueued (t.port b) + 2 ≤ 4)
    (armed : (t.port b).armed = some x) : Does L s (beginFrame b x t) := by
  unfold beginFrame
  refine h.port b _ ?_
  rintro ⟨-, h2, h3, h4, h5⟩
  refine ⟨?_, ?_, ?_, ?_, h5⟩
  · simp only [Port.shape, Port.enqueue, armed]
    refine ⟨by simp, by simp, ?_⟩
    simp only [markersQueued, List.countP_append, List.countP_cons, List.countP_nil, Burst.isLine] at room ⊢
    simp; omega
  · simp only [linesQueued, Port.enqueue, List.countP_append, List.countP_cons, List.countP_nil, Burst.isLine] at h2 ⊢
    simpa using h2
  · simp only [markersQueued, Port.enqueue, List.countP_append, List.countP_cons, List.countP_nil, Burst.isLine]
      at room ⊢
    simp; omega
  · show nextFrameNo _ ≤ _
    unfold nextFrameNo; omega

theorem countUp_le {top n : Nat} (h : n ≤ top) : countUp top n ≤ top := by unfold countUp; split <;> omega

theorem startFrame_does (h : Does L s t) (b : Side) : Does L s (startFrame b t) := by
  unfold startFrame
  dsimp only
  split
  · exact h.port b _ fun ⟨h1, h2, h3, h4, h5, h6⟩ =>
      ⟨by simpa [Port.shape, markersQueued] using h1, h2, h3, h4, countUp_le h5, h6⟩
  · next harm =>
    split
    · next room => exact beginFrame_does h b _ room harm
    · refine Does.raised (h.port b _ ?_) _ _
      exact fun ⟨h1, h2, h3, h4, h5, h6⟩ =>
        ⟨by simpa [Port.shape, markersQueued] using h1, h2, h3, h4, h5, countUp_le h6⟩

theorem frameStarts_does (h : Does L s t) (b : Side) : Does L s (frameStarts b t) := by
  have k := closeFrame_does h b .nextStart
  unfold frameStarts
  split
  · next e => rw [e] at k; exact takeVerdict_does (startFrame_does k b) b _
  · next e => rw [e] at k; exact startFrame_does k b

theorem takeLine_does (h : Does L s t) (b : Side) (ps : List Pixel) : Does L s (takeLine b ps t) := by
  have keep : ∀ f : Frame, (t.port b).frame ≠ none → (t.port b).law → ({ t.port b with frame := some f } : Port).law := by
    rintro f hf ⟨h1, h2⟩
    refine ⟨?_, h2⟩
    unfold Port.shape at *
    cases hs : (t.port b).state <;> simp_all [markersQueued]
  unfold takeLine
  dsimp only
  split
  · exact h
  · next hf =>
    have hf' : (t.port b).frame ≠ none := by simp [hf]
    split
    · exact h.port b _ (keep _ hf')
    · split
      · split
        · exact (h.port b _ (keep _ hf')).raised _ _
        · exact h.port b _ (keep _ hf')
      · next hl =>
        exact h.port b _ fun hp => Port.law_line (keep _ hf' hp) rfl (Nat.lt_of_not_le hl)

end Sys2Proof.Machine
end

