-- ==== Sys2Proof/Laws/Commands.lean ====
section
/-! SUPPORT. What the motions, the arrivals, the events and the reaction to them can do, as changes of Moves.lean.
Rules.lean goes on from here to one command and one millisecond. -/

namespace Sys2Proof.Machine

variable {L : Prop} {s t : State}

/-! ### Motions -/

theorem goto_does (h : Does L s t) (st : SeqState) : Does L s (goto st t) := by
  unfold goto
  dsimp only
  split
  · exact reseat_does (endVisits_does h) _
  · exact reseat_does h _

theorem enterMotion_does (h : Does L s t) (m : Motion) (d : Outputs → Outputs) : Does L s (enterMotion m d t) :=
  (goto_does h _).seq _

theorem movePointer_does (h : Does L s t) (p : Nat) : Does L s (movePointer p t) := reseat_does h _

theorem pauseVolume_does (h : Does L s t) (c : PauseCause) : Does L s (pauseVolume c t) := by
  unfold pauseVolume
  split
  · next hv =>
    dsimp only
    have k := (withdrawHold_does h).volState .paused (.inr (.inl ((congrArg (·.volState) (withdrawHold_col t)).trans hv))) (.inr (.inl rfl))
    exact (k.seq { (withdrawHold t).seq with pendingPause := none }).raised _ _
  · exact h

theorem enterFault_does (h : Does L s t) (r : FaultRecord) : Does L s (enterFault r t) :=
  pauseVolume_does ((goto_does (h.seq _) _).seq _) _

theorem motionFault_does (h : Does L s t) (m : Motion) (c : FaultCause) : Does L s (motionFault m c t) :=
  enterFault_does (h.raised _ _) _

theorem doubleFault_does (h : Does L s t) : Does L s (doubleFault t) := enterFault_does (h.raised _ _) _

theorem enterHeld_does (h : Does L s t) : Does L s (enterHeld t) := by
  have k := (goto_does h .held).seq { (goto .held t).seq with kind := none, turn := none, motionLeft := 0 }
  unfold enterHeld
  dsimp only
  split
  · split
    · exact pauseVolume_does k _
    · exact k.seq _
  · exact k.seq _

theorem platenDownDone_does (h : Does L s t) : Does L s (platenDownDone t) := enterHeld_does (h.seq _)

theorem enterPlatenDown_does (h : Does L s t) : Does L s (enterPlatenDown t) := by
  unfold enterPlatenDown
  dsimp only
  split
  · exact platenDownDone_does (enterMotion_does h _ _)
  · exact enterMotion_does h _ _

theorem enterPresent_does (h : Does L s t) : Does L s (enterPresent t) := by
  unfold enterPresent
  dsimp only
  split
  · exact enterPlatenDown_does (enterMotion_does h _ _)
  · exact enterMotion_does h _ _

theorem homeDone_does (h : Does L s t) : Does L s (homeDone t) := enterPresent_does (h.seq _)

theorem enterHome_does (h : Does L s t) : Does L s (enterHome t) := by
  unfold enterHome
  dsimp only
  split
  · exact homeDone_does (enterMotion_does h _ _)
  · exact enterMotion_does h _ _

theorem layDone_does (h : Does L s t) : Does L s (layDone t) := by
  unfold layDone
  split
  · exact doubleFault_does h
  · exact enterHome_does (movePointer_does h _)

theorem enterLay_does (h : Does L s t) : Does L s (enterLay t) := by
  unfold enterLay
  dsimp only
  split
  · exact enterMotion_does h _ _
  · exact layDone_does (enterMotion_does h _ _)

theorem driveCarry_does (h : Does L s t) : Does L s (driveCarry t) := enterMotion_does h _ _

theorem drivePick_does (h : Does L s t) : Does L s (drivePick t) := by
  unfold drivePick
  dsimp only
  split <;> exact enterMotion_does h _ _

theorem carryFromPick_does (h : Does L s t) : Does L s (carryFromPick t) := driveCarry_does (h.seq _)

theorem retryPick_does (h : Does L s t) : Does L s (retryPick t) := drivePick_does ((h.seq _).seq _)

theorem pickDone_does (n : Nat) : ∀ {t : State}, Does L s t → Does L s (pickDone n t) := by
  induction n with
  | zero => exact fun h => ite_does (motionFault_does ((carryFromPick_does h).seq _) _ _) (carryFromPick_does h)
  | succ n ih =>
    intro t h
    have k := carryFromPick_does h
    exact ite_does (ite_does (ih (retryPick_does k)) (retryPick_does k)) k

theorem enterPick_does (h : Does L s t) : Does L s (enterPick t) := by
  unfold enterPick
  dsimp only
  split
  · exact pickDone_does _ (drivePick_does h)
  · exact drivePick_does h

theorem mispick_does (h : Does L s t) (m : Motion) : Does L s (mispick m t) := by
  unfold mispick
  dsimp only
  split
  · exact enterPick_does ((h.seq _).seq _)
  · exact motionFault_does (h.seq _) _ _

theorem carryDone_does (h : Does L s t) : Does L s (carryDone t) := by
  unfold carryDone
  split
  · exact mispick_does h _
  · exact enterLay_does (h.seq _)

theorem retryCarry_does (h : Does L s t) : Does L s (retryCarry t) := by
  unfold retryCarry
  dsimp only
  split
  · exact carryDone_does (driveCarry_does h)
  · exact driveCarry_does h

theorem enterHandWait_does (h : Does L s t) (i : Nat) (o : Option Dir) : Does L s (enterHandWait i o t) :=
  ((goto_does h _).seq _).raised _ _

theorem enterFoldWait_does (h : Does L s t) : Does L s (enterFoldWait t) := (goto_does h _).seq _

theorem platenUpDone_does (h : Does L s t) : Does L s (platenUpDone t) := by
  unfold platenUpDone
  dsimp only
  have k : Does L s (t.setOutputs { t.seq.outputs with platen := .off }) := h.seq _
  split
  · exact enterPick_does k
  · exact enterHandWait_does k _ _
  · exact enterFoldWait_does k
  · exact enterHome_does k
  · exact k

theorem enterPlatenUp_does (h : Does L s t) (k : SeqKind) : Does L s (enterPlatenUp k t) := by
  have k := fun q d => enterMotion_does (h.seq q) .platenUp d
  exact ite_does (platenUpDone_does (k _ _)) (k _ _)

theorem beginTurn_does (h : Does L s t) (d : Dir) : Does L s (beginTurn d t) := by
  unfold beginTurn
  split
  · exact h
  · exact enterPlatenUp_does (h.seq _) _

theorem decideTurn_does (h : Does L s t) : Does L s (decideTurn t) := by
  unfold decideTurn
  split
  · exact beginTurn_does h _
  · split
    · exact beginTurn_does (h.seq _) _
    · exact pauseVolume_does (h.raised _ _) _

theorem carryStep_does (h : Does L s t) (d : Dir) : Does L s (carryStep d t) := by
  unfold carryStep
  dsimp only
  split
  · exact beginTurn_does ((h.seq _).seq _) _
  · exact h.seq _

theorem pushFoldout_does (h : Does L s t) (f : Nat) : Does L s (pushFoldout f t) := by
  unfold pushFoldout
  dsimp only
  split
  · exact (reseat_does h _).lamps _
  · exact reseat_does h _

theorem openFoldout_does (h : Does L s t) (b : Side) (f : Nat) : Does L s (openFoldout b f t).1 := by
  have k := fun q => reOffer_does (h.seq q) f
  unfold openFoldout
  dsimp only
  split
  · exact enterPlatenUp_does (pushFoldout_does ((k _).seq _) _) _
  · exact k _

theorem settledTurn_does (h : Does L s t) : Does L s (settledTurn t) := by
  unfold settledTurn
  split
  · exact carryStep_does h _
  · split
    · exact h
    · exact decideTurn_does h

theorem settledFold_does (h : Does L s t) : Does L s (settledFold t) := by
  unfold settledFold
  dsimp only
  split
  · next b f _ =>
    have k := openFoldout_does h b f
    split
    · next e => rw [e] at k; exact k
    · next e => rw [e] at k; exact settledTurn_does k
  · exact settledTurn_does h

theorem settledOpening_does (h : Does L s t) : Does L s (settledOpening t) := by
  have k := fun q d => (h.seq q).raised .openingDone d
  unfold settledOpening
  dsimp only
  split
  · exact pauseVolume_does (k _ _) _
  · exact settledFold_does (k _ _)

theorem setPhase_does (h : Does L s t) (ph : Phase) : Does L s (setPhase ph t) := by
  unfold setPhase
  split
  · exact h.seq _
  · exact h

theorem panelDone_does (h : Does L s t) : Does L s (panelDone t) := by
  unfold panelDone
  split
  · dsimp only
    split
    · exact pushFoldout_does (setPhase_does h _) _
    · exact setPhase_does h _
  · exact h

theorem leavePanel_does (h : Does L s t) : Does L s (leavePanel t) := by
  unfold leavePanel
  split
  · exact enterFoldWait_does h
  · exact enterFoldWait_does (panelDone_does h)

theorem clearStackCut_does (h : Does L s t) : Does L s (clearStackCut t) := by
  unfold clearStackCut
  split
  · exact h.lamps _
  · exact h

theorem advanceEntry_does (h : Does L s t) : Does L s (advanceEntry t) := by
  unfold advanceEntry
  split
  · exact h
  · split
    · exact clearStackCut_does (reseat_does h _)
    · dsimp only
      split
      · exact clearStackCut_does (reseat_does h _)
      · exact enterPresent_does ((clearStackCut_does (reseat_does h _)).seq _)

theorem foldPress_does (h : Does L s t) : Does L s (foldPress t) := by
  unfold foldPress
  split
  · exact h
  · split
    · exact advanceEntry_does h
    · split
      · exact (goto_does h _).seq _
      · split
        · exact panelDone_does h
        · exact advanceEntry_does (panelDone_does h)

theorem takePause_does (h : Does L s t) : Does L s (takePause t) := by
  unfold takePause
  split
  · split
    · exact pauseVolume_does h _
    · exact h
  · exact h

theorem reactHeld_does (h : Does L s t) : Does L s (reactHeld t) := by
  unfold reactHeld
  split
  · split
    · exact motionFault_does h _ _
    · exact h
  · split
    · split
      · exact takePause_does h
      · exact settledOpening_does h
    · exact takePause_does (h.seq _)

theorem reactPanel_does (h : Does L s t) : Does L s (reactPanel t) := by
  unfold reactPanel
  split
  · exact takePause_does h
  · split
    · exact leavePanel_does h
    · exact h

theorem reactSeq_does (h : Does L s t) : Does L s (reactSeq t) := by
  unfold reactSeq
  split
  · split
    · exact reactHeld_does h
    · exact reactPanel_does h
    · exact takePause_does h
    · exact takePause_does h
    all_goals exact h
  · exact h

theorem react_does (h : Does L s t) : Does L s (react t) := reactSeq_does (offerBoth_does h)

/-! ### Arrivals -/

theorem endManual_does (h : Does L s t) : Does L s (endManual t) := by
  unfold endManual
  split
  · exact h.seq _
  · exact h

theorem completeManual_does (h : Does L s t) (m : ManualMotion) : Does L s (completeManual m t) := by
  unfold completeManual
  split
  · exact endManual_does h
  · exact h

theorem startManual_does (h : Does L s t) (m : ManualMotion) : Does L s (startManual m t) := by
  unfold startManual
  dsimp only
  split
  · exact endManual_does (h.seq _)
  · exact h.seq _

theorem payOwed_does (h : Does L s t) : Does L s (payOwed t) := by
  unfold payOwed
  split
  · exact movePointer_does h _
  · exact h

theorem handPress_does (h : Does L s t) : Does L s (handPress t) := by
  have k := fun q => (payOwed_does (h.seq { t.seq with outputs := { t.seq.outputs with vacuum := false } })).seq q
  exact ite_does (enterPresent_does (k _)) (enterHome_does (k _))

theorem pedalAtSequencer_does (h : Does L s t) : Does L s (pedalAtSequencer t) := by
  unfold pedalAtSequencer
  split
  · split
    · exact handPress_does h
    · exact foldPress_does h
    · exact withdrawHold_does h
    all_goals exact h
  · exact h

theorem farArrives_does (h : Does L s t) (b : Side) : Does L s (farArrives b t) := by
  unfold farArrives
  dsimp only
  split
  · split
    · exact (h.seq _).seq _
    · exact h.seq _
  · split
    · exact carryDone_does (h.seq _)
    · exact h.seq _
  all_goals exact h.seq _

theorem contactArrives_does (h : Does L s t) (b : Side) : Does L s (contactArrives b t) := by
  unfold contactArrives
  split
  · dsimp only
    split
    · exact enterPlatenDown_does (h.seq _)
    · exact h.seq _
  · exact h

theorem platenLifted_does (h : Does L s t) : Does L s (platenLifted t) := by
  unfold platenLifted
  split
  · split
    · exact withdrawHold_does h
    · exact h.seq _
    all_goals exact h
  · exact h

theorem arrivesActive_does (h : Does L s t) (i : Input) : Does L s (arrivesActive i t) := by
  cases i
  · refine completeManual_does ?_ _
    split
    · exact homeDone_does h
    · exact h
  · unfold arrivesActive
    dsimp only
    split
    · exact h.seq _
    · exact h
  · exact farArrives_does h _
  · exact farArrives_does h _
  · unfold arrivesActive
    dsimp only
    split
    · exact pickDone_does _ h
    · exact h
  · refine completeManual_does ?_ _
    split
    · exact platenDownDone_does h
    · exact h
  · refine completeManual_does ?_ _
    split
    · exact platenUpDone_does (platenRose_does h)
    · exact platenRose_does h
  · exact contactArrives_does h _
  · exact contactArrives_does h _
  · unfold arrivesActive
    dsimp only
    split
    · exact h.seq _
    · exact h
  · exact pedalAtSequencer_does (restartDark_does h)

theorem arrivesInactive_does (h : Does L s t) (i : Input) : Does L s (arrivesInactive i t) := by
  unfold arrivesInactive
  split
  · split
    · exact layDone_does h
    · exact h
  · exact platenLifted_does h
  all_goals exact h

theorem arrive_does (h : Does L s t) (i : Input) (a : Bool) : Does L s (arrive i a t) := by
  unfold arrive
  refine react_does ?_
  split
  · exact arrivesActive_does (h.seq _) i
  · exact arrivesInactive_does (h.seq _) i

theorem lineArrives_does (h : Does L s t) (i : Input) (a : Bool) : Does L s (lineArrives i a t) :=
  (h.pins (lineArrives i a t).pins).seq (lineArrives i a t).seq

theorem expireMotion_does (h : Does L s t) : Does L s (expireMotion t) := by
  unfold expireMotion
  split
  · exact h
  · exact mispick_does h _
  · split
    · exact doubleFault_does (h.raised _ _)
    · exact motionFault_does h _ _
  · exact motionFault_does h _ _

theorem expireManual_does (h : Does L s t) : Does L s (expireManual t) := by
  unfold expireManual
  split
  · exact h
  · exact endManual_does h
  · exact (endManual_does h).raised _ _

end Sys2Proof.Machine
end

