-- ==== Sys2Proof/Laws/Link.lean ====
section
/-! SUPPORT. What the downstream receiver does with the bytes of a frame, and when the upstream transmitter is idle. -/

namespace Sys2Proof.Machine

/-- While the link is UP each byte received joins the frame in reception. -/
theorem receiveBytes_up (bytes : List Byte) : ∀ s : State, s.link.up = true →
    bytes.foldl receiveByte s = { s with link := { s.link with incoming := s.link.incoming ++ bytes } } := by
  induction bytes with
  | nil => intro s _; simp
  | cons x bytes ih =>
    intro s h
    have one : receiveByte s x = { s with link := { s.link with incoming := s.link.incoming ++ [x] } } := by
      simp [receiveByte, h]
    rw [List.foldl_cons, one, ih _ (by exact h)]
    simp [List.append_assoc]

/-- While the link is DOWN no byte is received. -/
theorem receiveBytes_down (bytes : List Byte) (s : State) (h : s.link.up = false) : bytes.foldl receiveByte s = s := by
  induction bytes with
  | nil => rfl
  | cons x bytes ih => rw [List.foldl_cons, show receiveByte s x = s by simp [receiveByte, h], ih]

/-- A whole frame received puts the command it spells, with what stood in reception before it, at the tail of the
queue. -/
theorem receive_up (bytes : List Byte) (s : State) (h : s.link.up = true) :
    s.receive bytes = { s with
      link := { s.link with incoming := [] }
      pending := s.pending ++ [decodeFrame (s.link.incoming ++ bytes)] } := by
  unfold State.receive
  rw [receiveBytes_up _ _ h]
  simp [receiveEnd, h]

theorem receive_down (bytes : List Byte) (s : State) (h : s.link.up = false) : s.receive bytes = s := by
  unfold State.receive
  rw [receiveBytes_down _ _ h]
  simp [receiveEnd, h]

/-- No port is chosen only when neither queues a burst. -/
theorem burstPort_none {s : State} (h : burstPort s = none) (b : Side) : (s.port b).queue = [] := by
  unfold burstPort at h
  split at h <;> simp_all [State.port]
  cases b <;> assumption

/-- A chosen port offers a burst. -/
theorem burstPort_some {s : State} {b : Side} (h : burstPort s = some b) : (s.port b).queue ≠ [] := by
  unfold burstPort at h
  split at h <;> simp_all [State.port]
  all_goals (cases b <;> simp_all [Both.get])

/-- No notice is selected only when none is eligible. -/
theorem selection_none {s : State} (h : selection s = none) (i : Nat) (hi : i < 16) : eligible s i = false := by
  simp only [selection, Option.or_eq_none_iff, List.find?_eq_none, List.mem_range] at h
  simpa using h.2 i hi

/-- A boundary leaves the transmitter idle only when nothing is offered. -/
theorem takeNext_idle {s : State} (h : (takeNext s).link.sending = none) : nothingOffered (takeNext s) := by
  unfold takeNext at h ⊢
  split
  · simp_all
  · next hr =>
    simp only [hr] at h ⊢
    split
    · next hs => simp [hs, markSent, send] at h
    · next hs =>
      simp only [hs] at h
      split
      · next hb =>
        simp only [hb] at h
        have := burstPort_some hb
        unfold takeBurst at h
        split at h <;> simp_all
      · next hb => exact ⟨hr, selection_none hs, burstPort_none hb⟩

/-- Every command that ends with a boundary leaves the transmitter's law. -/
theorem idleBoundary_idleLaw (s : State) : idleLaw (idleBoundary s) := by
  intro hu hn
  unfold idleBoundary at hu hn ⊢
  split
  · next h => rw [if_pos h] at hn; exact takeNext_idle hn
  · next h => rw [if_neg h] at hu hn; exact absurd ⟨hu, hn⟩ h

end Sys2Proof.Machine
end

