-- ==== Sys2Proof/Laws/Rules.lean ====
section
/-! SUPPORT. What the rule of each directive can do, as changes of Moves.lean, and what one command (`exec_does`) and
one millisecond (`tick_does`) can do. -/

namespace Sys2Proof.Machine

variable {L : Prop} {s t : State}

/-! ### The collation -/

theorem volumeActive_of {v : VolState} (h : t.col.volState = v) (a : v = .ready ∨ v = .scanning ∨ v = .paused) :
    volumeActive t := by unfold volumeActive; rw [h]; exact a

theorem openRule_does (h : Does L s t) (up : t.link.up = true) (ws : List Slot) : Does L s (openRule ws t).state := by
  unfold openRule
  split
  · exact h
  · split
    · exact h
    · next hr =>
      split
      · exact h
      · split
        · exact h
        · exact h
        · split
          · exact h
          · split
            · exact h
            · next hf => exact h.opened _ up hr (Nat.le_of_not_lt hf)

theorem writeFrom_length {α : Type} {first : Nat} {rs table : List α} (fits : first + rs.length ≤ table.length) :
    (writeFrom first rs table).length = table.length := by
  simp only [writeFrom, List.length_append, List.length_take, List.length_drop]
  omega

theorem leavesRule_does (h : Does L s t) (ws : List Slot) : Does L s (leavesRule ws t).state := by
  unfold leavesRule
  split
  · exact h
  · next hv =>
    have hl : t.col.volState = .loading := Decidable.not_not.mp hv
    split
    · exact h
    · next w rs _ =>
      dsimp only
      generalize (if w = 0xFFFFFFFF#32 then t.col.cursor else num w) = first
      split
      · next hf =>
        exact h.loaded _ hl hl rfl fun hn => (writeFrom_length (by rw [hn]; exact hf.1)).trans hn
      · exact h

theorem foldoutsRule_does (h : Does L s t) (ws : List Slot) : Does L s (foldoutsRule ws t).state := by
  unfold foldoutsRule
  split
  · exact h
  · next hv =>
    have hl : t.col.volState = .loading := Decidable.not_not.mp hv
    split
    · exact h
    · dsimp only
      split
      · exact h.loaded _ hl hl rfl id
      · exact h

theorem gatheringsRule_does (h : Does L s t) (ws : List Slot) : Does L s (gatheringsRule ws t).state := by
  unfold gatheringsRule
  split
  · exact h
  · next hv =>
    have hl : t.col.volState = .loading := Decidable.not_not.mp hv
    split
    · exact h
    · dsimp only
      split
      · exact h.loaded _ hl hl rfl id
      · exact h

theorem endLoadingRule_does (h : Does L s t) (ws : List Slot) : Does L s (endLoadingRule ws t).state := by
  unfold endLoadingRule
  split
  · exact h
  · next hv =>
    split
    · exact h
    · split
      · exact h
      · exact h.readied (Decidable.not_not.mp hv)

theorem amendRule_does (h : Does L s t) (ws : List Slot) : Does L s (amendRule ws t).state := by
  unfold amendRule
  split
  · exact h
  · split
    · exact h
    · dsimp only
      split
      · exact h
      · split
        · exact h
        · split
          · exact h
          · exact h.amended _ _ fun _ => ⟨rfl, rfl⟩

theorem skipRule_does (h : Does L s t) (ws : List Slot) : Does L s (skipRule ws t).state := by
  unfold skipRule
  split
  · exact h
  · split
    · exact h
    · split
      · exact h
      · exact settleAll_does _ (by simp) h

theorem stopSequencer_does (h : Does L s t) : Does L s (stopSequencer t) := ((goto_does h _).seq _).lamps _

theorem discardRule_does (h : Does L s t) (ws : List Slot) : Does L s (discardRule ws t).state := by
  unfold discardRule
  split
  · exact h
  · split
    · exact h
    · have k := ports_does (discardChannel_does (discardChannel_does h .left) .right) Port.law_discard
      refine Does.ended (ite_does (stopSequencer_does (endManual_does k)) ?_)
      exact (endManual_does k).seq _

/-! ### The turn sequencer -/

theorem disturb_does (h : Does L s t) : Does L s (disturb t) := ite_does (h.seq _) h

theorem startRule_does (h : Does L s t) (ws : List Slot) : Does L s (startRule ws t).state := by
  unfold startRule
  split
  · exact h
  · next hv =>
    split
    · exact h
    · split
      · exact h
      · split
        · exact h
        · refine react_does (enterPlatenUp_does (Does.clock ?_ _ _ _ _) _)
          refine (reseat_does h _).volState .scanning ?_ (.inl (by rfl))
          exact .inl (Decidable.not_not.mp hv)

theorem requestPause_does (h : Does L s t) (c : PauseCause) : Does L s (requestPause c t) :=
  ite_does (react_does (h.seq _)) h

theorem pauseRule_does (h : Does L s t) (ws : List Slot) : Does L s (pauseRule ws t).state := by
  unfold pauseRule
  split
  · exact h
  · split
    · exact h
    · exact requestPause_does h _

theorem reenter_does (h : Does L s t) (m : Motion) : Does L s (reenter m t) := by
  cases m
  · exact enterPresent_does h
  · exact enterPlatenDown_does h
  · exact enterPlatenUp_does h _
  · exact enterPick_does h
  · exact retryCarry_does h
  · exact enterLay_does h
  · exact enterHome_does h

theorem carryRetry_does (h : Does L s t) (r : FaultRecord) : Does L s (carryRetry r t) := by
  unfold carryRetry
  split
  · exact enterPick_does (h.seq _)
  · exact enterPlatenDown_does (h.seq _)
  all_goals exact reenter_does h _

theorem carryHand_does (h : Does L s t) (r : FaultRecord) : Does L s (carryHand r t) :=
  ite_does (enterFoldWait_does h) (enterHandWait_does h _ _)

theorem carryAdvance_does (h : Does L s t) (r : FaultRecord) : Does L s (carryAdvance r t) := by
  unfold carryAdvance
  split
  · dsimp only
    have k : Does L s (vacuumOff t) := h.seq _
    exact enterHome_does (movePointer_does ((settleAll_does _ (by simp) k).seq _) _)
  · exact h

theorem carryOut_does (h : Does L s t) (r : FaultRecord) : Does L s (carryOut r t) := by
  unfold carryOut
  split
  · exact carryRetry_does h r
  · exact carryHand_does h r
  · exact enterHandWait_does h _ _
  · exact carryAdvance_does h r
  · exact h

theorem resumeRest_does (h : Does L s t) (d : Bool) : Does L s (resumeRest d t) := by
  unfold resumeRest
  split
  · exact h.seq _
  · exact h.seq _
  · exact enterPresent_does (h.seq _)
  · exact enterPlatenUp_does (setPhase_does h _) _
  · exact enterPlatenUp_does h _
  · exact h

theorem resumeRule_does (h : Does L s t) (ws : List Slot) : Does L s (resumeRule ws t).state := by
  unfold resumeRule
  split
  · exact h
  · next hv =>
    split
    · exact h
    · split
      · exact h
      · split
        · exact h
        · have k := fun q => (h.seq q).volState .scanning (.inr (.inr (Decidable.not_not.mp hv))) (.inl rfl)
          refine react_does ?_
          split
          · exact carryOut_does (k _) _
          · exact resumeRest_does (k _) _

theorem stepRule_does (h : Does L s t) (ws : List Slot) : Does L s (stepRule ws t).state := by
  unfold stepRule
  repeat' split
  any_goals exact h
  exact react_does (ite_does (carryStep_does (h.seq _) _) (h.seq _))

theorem modeRule_does (h : Does L s t) (ws : List Slot) : Does L s (modeRule ws t).state := by
  unfold modeRule
  split
  · exact h
  · split
    · exact h
    · split
      · exact h
      · have k := fun q => h.seq q
        exact react_does (ite_does (decideTurn_does (k _)) (k _))

theorem resolveRule_does (h : Does L s t) (ws : List Slot) : Does L s (resolveRule ws t).state := by
  unfold resolveRule resolveFault
  repeat' split
  any_goals exact h
  exact h.seq _

theorem moveRule_does (h : Does L s t) (ws : List Slot) : Does L s (moveRule ws t).state := by
  unfold moveRule
  repeat' split
  any_goals exact h
  exact disturb_does (startManual_does h _)

theorem releaseRule_does (h : Does L s t) (ws : List Slot) : Does L s (releaseRule ws t).state := by
  unfold releaseRule
  repeat' split
  any_goals exact h
  exact disturb_does (h.seq _)

/-! ### Lamps, the lock and the tally -/

theorem setLockout_does (h : Does L s t) (c : Nat) (k : Option LampFault) :
    Does L s { t with lamps := { t.lamps with lockouts := t.lamps.lockouts.set c k } } :=
  h.lamps { t.lamps with lockouts := t.lamps.lockouts.set c k } fun q => ⟨by simpa using q.1, q.2⟩

theorem clearLampRule_does (h : Does L s t) (ws : List Slot) : Does L s (clearLampRule ws t).state := by
  unfold clearLampRule
  repeat' split
  any_goals exact h
  exact setLockout_does h _ _

theorem setLock_does (h : Does L s t) : Does L s (setLock .closed t) :=
  h.lock _ rfl fun k => ⟨k.1, fun e => by cases e⟩

theorem lockRule_does (h : Does L s t) (ws : List Slot) : Does L s (lockRule ws t).state := by
  unfold lockRule
  split
  · exact h
  · exact setLock_does h

theorem unlockRule_does (h : Does L s t) (ws : List Slot) : Does L s (unlockRule ws t).state := by
  unfold unlockRule
  split
  · exact h
  · split
    · exact h
    · next hm =>
      split
      · exact h
      · split
        · exact h.lock _ rfl fun _ => ⟨Nat.zero_le _, fun _ => rfl⟩
        · exact h.lock _ rfl fun _ => ⟨by show t.dose.mismatches + 1 ≤ 4; omega, fun e => by cases e⟩

theorem setKeyRule_does (h : Does L s t) (ws : List Slot) : Does L s (setKeyRule ws t).state := by
  unfold setKeyRule
  repeat' split
  any_goals exact h
  exact h.settings _ id (.inl rfl)

theorem readTallyRule_does (h : Does L s t) (ws : List Slot) : Does L s (readTallyRule ws t).state := by
  unfold readTallyRule
  repeat' split
  all_goals exact h

theorem retakeRule_does (h : Does L s t) (ws : List Slot) : Does L s (retakeRule ws t).state := by
  unfold retakeRule
  split
  · exact h
  · next hv =>
    have ha : volumeActive t := by
      unfold volumeActive
      by_cases h1 : t.col.volState = .scanning <;> simp_all
    split
    · exact h
    · split
      · exact h
      · split
        · exact h
        · split
          · exact h
          · next hl =>
            split
            · exact h
            all_goals first
              | exact h
              | exact react_does (h.retaken _ _ _ (by assumption) (by simp) (Nat.lt_of_not_le hl) ha)

theorem settle_vol (x : Target) (a : TState) (u : State) : (settle x a u).col.volState = u.col.volState := by
  unfold settle
  split
  · cases x with
    | side => rw [markSettledHere]; split <;> rfl
    | panel => rw [markSettledHere]; split <;> simp only [dropRetake, changeState, moveCount, modifyFields, State.setSeq] <;>
        split <;> rfl
  · rfl

theorem settleAll_vol (xs : List Target) (a : TState) : ∀ u : State, (settleAll xs a u).col.volState = u.col.volState := by
  induction xs with
  | nil => exact fun _ => rfl
  | cons x xs ih => exact fun u => (ih _).trans (settle_vol x a u)

theorem endVisits_col (u : State) : (endVisits u).col = u.col := by
  have k : ∀ b (v : State), (endVisit b v).col = v.col := fun b v => by unfold endVisit; split <;> rfl
  exact (k _ _).trans (k _ _)

theorem stopSequencer_vol (u : State) : (stopSequencer u).col.volState = u.col.volState := by
  show (goto .stopped u).col.volState = _
  unfold goto
  dsimp only
  split
  · exact congrArg (·.volState) (endVisits_col u)
  · rfl

theorem closeWith_does (h : Does L s t) (n : Nat) (a : volumeActive t) : Does L s (closeWith n t) := by
  have k := (stopSequencer_does h).volState .closed
    (by unfold volumeActive; rw [stopSequencer_vol]; exact a) (.inr (.inr rfl))
  exact k.clock _ _ _ _

theorem closeRule_does (h : Does L s t) (ws : List Slot) : Does L s (closeRule ws t).state := by
  unfold closeRule
  split
  · exact h
  · next hv =>
    have ha : volumeActive t := by
      unfold volumeActive
      by_cases h1 : t.col.volState = .ready <;> simp_all
    split
    · exact h
    · split
      · exact h
      · dsimp only
        split
        · exact h
        · refine closeWith_does (ite_does (settleAll_does _ (by simp) h) h) _ ?_
          unfold volumeActive
          split
          · rw [settleAll_vol]; exact ha
          · exact ha

theorem readClosureRule_does (h : Does L s t) (ws : List Slot) : Does L s (readClosureRule ws t).state := by
  unfold readClosureRule
  dsimp only
  repeat' split
  all_goals exact h

/-! ### The tables -/

theorem readTableRule_does (h : Does L s t) (ws : List Slot) : Does L s (readTableRule ws t).state := by
  unfold readTableRule readAnswer
  repeat' split
  all_goals exact h

theorem writeAnswer_does {u : State} (h : Does L s u) (a b : List Slot) : Does L s (writeAnswer a b u).state := by
  unfold writeAnswer
  split <;> exact h

theorem openWrite_does (h : Does L s t) {n k : Nat} {w : Nat → List Slot → State → Answer}
    (hw : ∀ i fs, i < n → Does L s (w i fs t).state) (ws : List Slot) : Does L s (openWrite n k w ws t).state := by
  unfold openWrite
  split
  · exact h
  · split
    · exact h
    · split
      · exact h
      · next hi => exact hw _ _ (Nat.lt_of_not_le hi)

theorem guardedWrite_does (h : Does L s t) {n k : Nat} {idle : Bool} {w : Nat → List Slot → State → Answer}
    (hw : ∀ i fs, i < n → (idle = true → t.col.volState = .empty ∨ t.col.volState = .closed) →
      Does L s (w i fs t).state)
    (ws : List Slot) : Does L s (guardedWrite n k idle w ws t).state := by
  unfold guardedWrite
  split
  · exact h
  · split
    · exact h
    · split
      · exact h
      · split
        · exact h
        · next hv =>
          split
          · exact h
          · next hi =>
            refine hw _ _ (Nat.lt_of_not_le hi) fun hidle => ?_
            simp only [hidle, true_and, not_and, Decidable.not_not] at hv
            by_cases he : t.col.volState = .empty
            · exact .inl he
            · exact .inr (hv he)

/-- One entry replaced in a list all of whose entries keep a law. -/
theorem forall_set {α : Type} {p : α → Prop} {l : List α} {i : Nat} {x : α} (h : ∀ y ∈ l, p y) (hx : p x) :
    ∀ y ∈ l.set i x, p y := fun y hy => by
  rcases List.mem_or_eq_of_mem_set hy with k | rfl
  · exact h y k
  · exact hx

theorem forall_modify {α : Type} {p : α → Prop} {l : List α} {i : Nat} {g : α → α} (h : ∀ y ∈ l, p y)
    (hg : ∀ y, p y → p (g y)) : ∀ y ∈ l.modify i g, p y := fun y hy => by
  obtain ⟨j, hj, rfl⟩ := List.getElem_of_mem hy
  rw [List.getElem_modify]
  have := h (l[j]'(by simpa using hj)) (List.getElem_mem _)
  split
  · exact hg _ this
  · exact this

theorem clampNat_bounds {lo hi n : Nat} (h : lo ≤ hi) : lo ≤ clampNat lo hi n ∧ clampNat lo hi n ≤ hi := by
  unfold clampNat; split
  · omega
  · split <;> omega

theorem clampInt_bounds {lo hi n : Int} (h : lo ≤ hi) : lo ≤ clampInt lo hi n ∧ clampInt lo hi n ≤ hi := by
  unfold clampInt; split
  · omega
  · split <;> omega

theorem darkenStrobes_does (h : Does L s t) : Does L s (darkenStrobes t) :=
  setStrobe_does (setStrobe_does h _ _) _ _

theorem modifyCal_does (h : Does L s t) (i : Nat) {g : Calibration → Calibration} (hg : ∀ c, c.law → (g c).law) :
    Does L s (modifyCal i g t) := by
  refine h.settings _ ?_ (.inl (by rfl))
  rintro ⟨⟨k1, k2⟩, k3⟩
  exact ⟨⟨by simpa using k1, forall_modify k2 hg⟩, k3⟩

theorem writeCalibration_does (h : Does L s t) (i : Nat) (fs : List Slot) : Does L s (writeCalibration i fs t).state := by
  refine writeAnswer_does (darkenStrobes_does (modifyCal_does h i ?_)) _ _
  rintro c ⟨_, _, _, k4, k5⟩
  exact ⟨(clampNat_bounds (Nat.zero_le _)).2, (clampInt_bounds (by decide)).1, (clampInt_bounds (by decide)).2, k4, k5⟩

theorem writeCap_does (h : Does L s t) (i : Nat) (fs : List Slot) : Does L s (writeCap i fs t).state := by
  refine writeAnswer_does (modifyCal_does h i ?_) _ _
  rintro c ⟨k1, k2, k3, _, k5⟩
  exact ⟨k1, k2, k3, (clampNat_bounds (Nat.zero_le _)).2, k5⟩

theorem writePreview_does (h : Does L s t) (i : Nat) (fs : List Slot) : Does L s (writePreview i fs t).state := by
  refine writeAnswer_does (modifyCal_does h i ?_) _ _
  rintro c ⟨k1, k2, k3, k4, _⟩
  exact ⟨k1, k2, k3, k4, (clampNat_bounds (Nat.zero_le _)).2⟩

theorem readLimits_law (fs : List Slot) : (readLimits fs).law := by
  refine ⟨(clampNat_bounds (Nat.zero_le _)).2, ?_⟩
  unfold readLimits
  dsimp only
  split
  · next hh =>
    have : at' fs 2 < 2 ^ 32 := (fs.getD 2 0).isLt
    omega
  · decide

theorem writeLimits_does (h : Does L s t) (i : Nat) (fs : List Slot)
    (idle : t.col.volState = .empty ∨ t.col.volState = .closed) : Does L s (writeLimits i fs t).state := by
  refine writeAnswer_does (h.settings _ ?_ (.inr idle)) _ _
  rintro ⟨k1, ⟨k2, k3⟩, k4⟩
  exact ⟨k1, ⟨by simpa using k2, forall_set k3 (readLimits_law fs)⟩, k4⟩

theorem readRecipe_law (ws : List Slot) : (readRecipe ws).law := by
  have d : ∀ k, ((⟨(List.range 6).map fun i => clampNat 0 255 (at' ws (1 + 7 * k + i)),
      clampNat 100 50000 (at' ws (1 + 7 * k + 6))⟩ : Shot)).law := by
    intro k
    have tm := clampNat_bounds (lo := 100) (hi := 50000) (n := at' ws (1 + 7 * k + 6)) (by decide)
    refine ⟨by simp, ?_, tm.1, tm.2⟩
    intro x hx
    obtain ⟨i, -, rfl⟩ := List.mem_map.mp hx
    exact (clampNat_bounds (Nat.zero_le _)).2
  have b (lo hi n) (h : lo ≤ hi) := clampNat_bounds (lo := lo) (hi := hi) (n := n) h
  have sc := b 1 3 (at' ws 0) (by decide)
  have tl := b 1 7 (at' ws 25) (by decide)
  refine ⟨sc.1, sc.2, rfl, ?_, Nat.le_max_left _ _, Nat.max_le.mpr ⟨(b 0 65535 _ (by decide)).2, (b 0 65535 _ (by decide)).2⟩,
    (b 0 1000 _ (by decide)).2, tl.1, tl.2⟩
  simp only [readRecipe, List.mem_cons, List.not_mem_nil, or_false]
  rintro q (rfl | rfl | rfl)
  · exact d 0
  · exact d 1
  · exact d 2

theorem writeRecipe_does (h : Does L s t) (i : Nat) (fs : List Slot) : Does L s (writeRecipe i fs t).state := by
  refine writeAnswer_does (h.settings _ ?_ (.inl (by rfl))) _ _
  rintro ⟨k1, k2, ⟨k3, k4⟩, k5⟩
  exact ⟨k1, k2, ⟨by simpa using k3, forall_set k4 (readRecipe_law fs)⟩, k5⟩

theorem writeMotionLimit_does (h : Does L s t) (i : Nat) (fs : List Slot) : Does L s (writeMotionLimit i fs t).state := by
  refine writeAnswer_does (h.settings _ ?_ (.inl (by rfl))) _ _
  rintro ⟨k1, k2, k3, ⟨k4, k5⟩, k6⟩
  exact ⟨k1, k2, k3, ⟨by simpa using k4, forall_set k5 (clampNat_bounds (by decide))⟩, k6⟩

theorem writePolarity_does (h : Does L s t) (i : Nat) (fs : List Slot) : Does L s (writePolarity i fs t).state := by
  unfold writePolarity
  split
  · exact h
  · refine h.settings _ ?_ (.inl (by rfl))
    rintro ⟨k1, k2, k3, k4, k5, k6⟩
    exact ⟨k1, k2, k3, k4, by simpa using k5, k6⟩

theorem readGeometry_law (ws : List Slot) : (readGeometry ws).law := by
  have b (lo hi n) (h : lo ≤ hi) := clampNat_bounds (lo := lo) (hi := hi) (n := n) h
  have w := b 1024 12288 (at' ws 0) (by decide)
  have hh := b 1024 16384 (at' ws 1) (by decide)
  unfold readGeometry Geometry.law
  dsimp only
  generalize clampNat 1024 12288 (at' ws 0) = a at w
  generalize clampNat 1024 16384 (at' ws 1) = c at hh
  have x0 := b 0 (a - a % 2 - 1) (at' ws 2) (Nat.zero_le _)
  have x1 := b 0 (a - a % 2 - 1) (at' ws 3) (Nat.zero_le _)
  have y0 := b 0 (c - 1) (at' ws 4) (Nat.zero_le _)
  have y1 := b 0 (c - 1) (at' ws 5) (Nat.zero_le _)
  have cl := b 0 65535 (at' ws 6) (Nat.zero_le _)
  omega

theorem writeGeometry_does (h : Does L s t) (i : Nat) (fs : List Slot) : Does L s (writeGeometry i fs t).state := by
  refine writeAnswer_does (h.settings _ ?_ (.inl (by rfl))) _ _
  rintro ⟨k1, k2, k3, k4, k5, ⟨k6, k7⟩, k8⟩
  refine ⟨k1, k2, k3, k4, k5, ?_, k8⟩
  cases portNumbered i
  · exact ⟨readGeometry_law fs, k7⟩
  · exact ⟨k6, readGeometry_law fs⟩

theorem writeTimers_does (h : Does L s t) (i : Nat) (fs : List Slot) : Does L s (writeTimers i fs t).state := by
  refine writeAnswer_does (h.settings _ ?_ (.inl (by rfl))) _ _
  have b (lo hi n) (h : lo ≤ hi) := clampNat_bounds (lo := lo) (hi := hi) (n := n) h
  rintro ⟨k1, k2, k3, k4, k5, k6, -, k7⟩
  exact ⟨k1, k2, k3, k4, k5, k6, ⟨(b 0 600 _ (by decide)).2, (b 200 10000 _ (by decide)).1,
    (b 200 10000 _ (by decide)).2, (b 0 3 _ (by decide)).2⟩, k7⟩

theorem writeLevel_does (h : Does L s t) (i : Nat) (fs : List Slot) : Does L s (writeLevel i fs t).state := by
  unfold writeLevel
  split
  · exact h
  · next l _ =>
    split
    · exact h
    · next hl =>
      refine h.settings _ ?_ (.inl (by rfl))
      rintro ⟨k1, k2, k3, k4, k5, k6, k7, k8, k9, k10⟩
      refine ⟨k1, k2, k3, k4, k5, k6, k7, k8, by simpa using k9, ?_⟩
      rw [List.getElem?_set]
      split
      · next e =>
        cases l with
        | urgent => simp [k9, e]
        | normal => exact (hl ⟨e, rfl⟩).elim
      · exact k10

theorem writeOtherRule_does (h : Does L s t) (ws : List Slot) : Does L s (writeOtherRule ws t).state := by
  unfold writeOtherRule
  split <;> exact h

/-! ### The arbiter -/

theorem send_does (h : Does L s t) (l : L) (f : Option UpFrame) : Does L s (send f t) := h.link l _ id id

theorem takeBurst_does (h : Does L s t) (l : L) (b : Side) : Does L s (takeBurst b t) := by
  unfold takeBurst
  split
  · exact h
  · next q rest hq =>
    refine (h.port b { t.port b with queue := rest } ?_).link l _ id id
    rintro ⟨h1, h2, h3, h4⟩
    have el : linesQueued { t.port b with queue := rest } ≤ linesQueued (t.port b) := by
      simp only [linesQueued, hq, List.countP_cons]; omega
    have em : markersQueued { t.port b with queue := rest } ≤ markersQueued (t.port b) := by
      simp only [markersQueued, hq, List.countP_cons]; omega
    refine ⟨?_, Nat.le_trans el h2, Nat.le_trans em h3, h4⟩
    unfold Port.shape at *
    revert h1
    cases (t.port b).state
    · exact id
    · exact id
    · exact fun h => ⟨h.1, h.2.1, Nat.le_trans em h.2.2⟩

theorem selection_eligible {i : Nat} (h : selection t = some i) : eligible t i = true := by
  unfold selection at h
  rcases Option.or_eq_some_iff.mp h with k | ⟨-, k⟩
  · have := List.find?_some k
    simp only [Bool.and_eq_true] at this
    exact this.1
  · exact List.find?_some k

theorem takeNext_does (h : Does L s t) (l : L) : Does L s (takeNext t) := by
  unfold takeNext
  split
  · next hq =>
    refine h.link l _ (fun k => ⟨?_, k.2⟩) id
    have := k.1
    rw [hq] at this
    exact Nat.le_of_succ_le this
  · split
    · next i hi => exact (send_does h l _).marked i (selection_eligible hi)
    · split
      · exact takeBurst_does h l _
      · exact send_does h l _

theorem idleBoundary_does (h : Does L s t) (l : L) : Does L s (idleBoundary t) := ite_does (takeNext_does h l) h

theorem event_does {f : State → State} (h : Does L s t) (l : L) (hf : ∀ {u}, Does L s u → Does L s (f u)) :
    Does L s (event t f) := unlessHeld_does h fun k => idleBoundary_does (hf k) l

/-! ### The store, resets and start-up -/

theorem storeRule_does (h : Does L s t) (ws : List Slot) : Does L s (storeRule ws t).state := by
  unfold storeRule
  repeat' split
  any_goals exact h
  exact h.store _ (·.2) fun e => by cases e

theorem recallRule_does (h : Does L s t) (ws : List Slot) : Does L s (recallRule ws t).state := by
  unfold recallRule
  split
  · exact h
  · next hv =>
    split
    · exact h
    · split
      · exact h
      · refine setLock_does (h.store _ (·.2) fun _ => .inr ?_)
        by_cases he : t.col.volState = .empty <;> simp_all

theorem storeIdle_does (h : Does L s t) : Does L s (storeIdle t) := h.store _ (·.2) fun e => by cases e

theorem endStore_does (h : Does L s t) (l : L) (ok : Bool) : Does L s (endStore ok t) := by
  unfold endStore
  split
  · next hst =>
    refine idleBoundary_does (Does.raised (storeIdle_does (ite_does ?_ h)) _ _) l
    exact h.store _ (·.1) fun e => .inl e
  · exact h

theorem endRecall_does (h : Does L s t) (l : L) : Does L s (endRecall t) := by
  unfold endRecall
  split
  · next hr =>
    exact idleBoundary_does
      ((storeIdle_does (ite_does (darkenStrobes_does (restartDark_does (h.recalled hr.2))) h)).raised _ _) l
  · exact h

theorem beginReset_does (h : Does L s t) (l : L) (c : ResetCause) : Does L s (beginReset c t) := by
  unfold beginReset
  split
  · split
    · exact (h.link l { t.link with cause := .powerOn } id id).seq { t.seq with outputs := .braked false }
    · exact h
  · exact h.reset l c

theorem releaseReset_does (h : Does L s t) : Does L s (releaseReset t) := by
  by_cases hs : t.start = .held
  · exact h.released hs
  · unfold releaseReset
    rw [if_neg hs]
    exact h

theorem firstLinkUp_does (h : Does L s t) (l : L) (a : t.start = .awaitLink) : Does L s (firstLinkUp t) :=
  (h.firstUp l a).raised _ _

theorem endStartupRecall_does (h : Does L s t) (l : L) : Does L s (endStartupRecall t) := by
  unfold endStartupRecall
  split
  · next hr =>
    have k : Does L s (raise .store (storeDetail true (imageValid t.store)) (storeIdle
        { restartDark { t with settings := if imageValid t.store = true then t.store.image else .factory } with
          start := .awaitLink })) :=
      ((h.startup hr (if imageValid t.store = true then t.store.image else .factory)
        (by split <;> simp)).lamps _).raised _ _
    exact ite_does (idleBoundary_does (firstLinkUp_does k l rfl) l) k
  · exact h

/-! ### The link and the notice unit -/

theorem clearCounts_does (h : Does L s t) (l : L) : Does L s (clearCounts t) := by
  have k := h.link l { t.link with errors := 0, discards := 0 }
    (fun k => ⟨k.1, Nat.zero_le _, Nat.zero_le _⟩) id
  exact ports_does k (f := fun p => { p with unsolicited := 0, refused := 0 })
    fun ⟨h1, h2, h3, h4, _⟩ => ⟨by simpa [Port.shape, markersQueued] using h1, h2, h3, h4, Nat.zero_le _, Nat.zero_le _⟩

theorem clearNoticesRule_does (h : Does L s t) (ws : List Slot) : Does L s (clearNoticesRule ws t).state := by
  unfold clearNoticesRule
  split
  · exact h
  · exact h.cleared _

theorem enablesRule_does (h : Does L s t) (ws : List Slot) : Does L s (enablesRule ws t).state := by
  unfold enablesRule
  repeat' split
  any_goals exact h
  refine (h.settings { t.settings with enables := (List.range 16).map (ws.getD 0 0).getLsbD } ?_ (.inl (by rfl))).master _
  rintro ⟨k1, k2, k3, k4, k5, k6, k7, -, k9⟩
  exact ⟨k1, k2, k3, k4, k5, k6, k7, by simp, k9⟩

theorem arrivalCommand_does (h : Does L s t) (l : L) (i : Input) (a : Bool) : Does L s (arrivalCommand i a t) :=
  event_does h l fun k => arrive_does (lineArrives_does k i a) i a

theorem frameBoundary_does (h : Does L s t) (l : L) : Does L s (frameBoundary t) :=
  ite_does (beginReset_does h l _) (ite_does (takeNext_does h l) (send_does h l _))

theorem takeBadFrame_does (h : Does L s t) (l : L) (k : Byte) : Does L s (takeBadFrame k t) :=
  ite_does (idleBoundary_does ((h.link l { t.link with errors := countUp 65535 t.link.errors }
    (fun k => ⟨k.1, countUp_le k.2.1, k.2.2⟩) id).raised _ _) l) h

theorem discardDirective_does (h : Does L s t) (l : L) : Does L s (discardDirective t) :=
  ite_does (h.link l _ (fun k => ⟨k.1, k.2.1, countUp_le k.2.2⟩) (by exact id)) h

theorem loseLock_does (h : Does L s t) (l : L) : Does L s (loseLock t) := by
  have k := h.link l { t.link with lock := false, up := false, incoming := [] } id (fun e => by cases e)
  have k' := requestPause_does (k.raised .linkFault [1, 0]) .link
  exact ite_does (ite_does (beginReset_does k' l _) k') k

theorem gainLock_does (h : Does L s t) (l : L) : Does L s (gainLock t) := by
  have k := h.link l { t.link with lock := true } id id
  unfold gainLock
  dsimp only
  split
  · exact k
  · exact k
  · next ha => exact idleBoundary_does (firstLinkUp_does k l ha) l
  · next hr => exact ite_does k (idleBoundary_does (h.linkUp l hr) l)

theorem makeLinkReset_does (h : Does L s t) (l : L) : Does L s (makeLinkReset t) := ite_does (beginReset_does h l _) h

/-! ### Lamps, supply, clock -/

theorem setSupply_does (h : Does L s t) (q : Supply) (n : Nat) : Does L s (setSupply q n t) := h.lamps _

theorem badSupply_does (h : Does L s t) : Does L s (badSupply t) := by
  have k := react_does
    ((cutStrobe_does (cutStrobe_does (setSupply_does h .low 0) .left) .right).raised .lampSupply [slot (strobesRunning t)])
  unfold badSupply
  split
  · exact h
  · exact k
  · exact k

theorem supplyReturns_does (h : Does L s t) : Does L s (supplyReturns t) := react_does (setSupply_does h _ _)

theorem goodSupply_does (h : Does L s t) : Does L s (goodSupply t) := by
  unfold goodSupply
  split
  · exact setSupply_does h _ _
  · exact ite_does (supplyReturns_does h) (setSupply_does h _ _)
  · exact h

theorem clockSecond_does (h : Does L s t) : Does L s (clockSecond t) := ite_does (h.clock _ _ _ _) h

theorem lockOut_does (h : Does L s t) (c : Nat) (k : LampFault) : Does L s (lockOut c k t) :=
  ite_does ((darkenStrobes_does (setLockout_does h c (some k))).raised _ _) h

theorem darkExpiry_does (h : Does L s t) : Does L s (darkExpiry t) := ite_does (h.lamps _) h

theorem tickBank_does (h : Does L s t) (b : Side) : Does L s (tickBank b t) := by
  unfold tickBank
  split
  · split
    · exact h
    · next x _ =>
      have fits : ∀ n, n ≤ roomOf t x → volumeActive t → doseOf t x ≤ (doseLimits t).side →
          t.dose.volDose ≤ (doseLimits t).volume →
          doseOf t x + n ≤ (doseLimits t).side ∧ t.dose.volDose + n ≤ (doseLimits t).volume := by
        intro n hn _ h1 h2
        have := Nat.le_min.mp hn
        omega
      dsimp only
      split
      · next hc => exact h.charged x _ (fits _ hc)
      · exact ((h.charged x _ (fits _ (Nat.le_refl _))).lamps _).raised _ _
  · exact h

theorem tickDose_does (h : Does L s t) (b : Side) : Does L s (tickDose b t) :=
  (tickBank_does (tickBank_does h b) b.other).lock _ rfl id

/-! ### One command -/

theorem directive_does {rule : State → Answer} (tag : Byte) (code : Slot)
    (hr : takesDirective s = true → Does True s (rule s).state ∧ (rule s).state.link.replies = s.link.replies) :
    Does True s (directive tag code rule s) := by
  rcases directive_cases tag code rule s with ⟨e, ht⟩ | e | e
  · rw [e]
    obtain ⟨k, hq⟩ := hr ht
    have k' := k.link trivial { (rule s).state.link with
      replies := (rule s).state.link.replies ++ [⟨tag, code, (rule s).code, (rule s).results⟩] }
      (fun m => ⟨by
        simp only [takesDirective, Bool.and_eq_true, decide_eq_true_eq] at ht
        rw [hq, List.length_append]
        exact ht.2, m.2⟩) id
    refine idleBoundary_does ?_ trivial
    exact ite_does (restartDark_does k') k'
  · rw [e]
    exact Does.refl.link trivial _ (fun k => ⟨k.1, k.2.1, countUp_le k.2.2⟩) id
  · rw [e]
    exact .refl

/-- The same for a rule that leaves the link alone. -/
theorem quietDirective_does {rule : State → Answer} (tag : Byte) (code : Slot)
    (hr : takesDirective s = true → Does False s (rule s).state) : Does True s (directive tag code rule s) :=
  directive_does tag code fun h => ⟨(hr h).quiet, by rw [(hr h).link_eq]⟩

theorem statusRule_does (tag : Byte) (code : Slot) (ws : List Slot) : Does True s (directive tag code (statusRule ws) s) := by
  refine directive_does tag code fun _ => ?_
  unfold statusRule
  split
  · exact ⟨.refl, rfl⟩
  · dsimp only
    split
    · exact ⟨clearCounts_does .refl trivial, rfl⟩
    · exact ⟨.refl, rfl⟩

theorem resetPartRule_does (tag : Byte) (code : Slot) (ws : List Slot) :
    Does True s (directive tag code (resetPartRule ws) s) := by
  refine directive_does tag code fun _ => ?_
  unfold resetPartRule
  split
  · exact ⟨.refl, rfl⟩
  · split
    · exact ⟨.refl, rfl⟩
    · exact ⟨Does.refl.link trivial _ id id, rfl⟩

/-- One command. -/
theorem exec_does {c : Instr} (h : exec c s = .next t) : Does True s t := by
  have r : ∀ {L : Prop}, Does L s s := .refl
  cases c <;> simp only [exec] at h <;> cases h
  case openVolume => exact quietDirective_does _ _ fun ht => openRule_does r (by
    simp only [takesDirective, Bool.and_eq_true] at ht; exact ht.1.1) _
  case writeLeaves => exact quietDirective_does _ _ fun _ => leavesRule_does r _
  case writeFoldouts => exact quietDirective_does _ _ fun _ => foldoutsRule_does r _
  case writeGatherings => exact quietDirective_does _ _ fun _ => gatheringsRule_does r _
  case endLoading => exact quietDirective_does _ _ fun _ => endLoadingRule_does r _
  case amendLeaf => exact quietDirective_does _ _ fun _ => amendRule_does r _
  case skipLeaf => exact quietDirective_does _ _ fun _ => skipRule_does r _
  case discardVolume => exact quietDirective_does _ _ fun _ => discardRule_does r _
  case start => exact quietDirective_does _ _ fun _ => startRule_does r _
  case pause => exact quietDirective_does _ _ fun _ => pauseRule_does r _
  case resume => exact quietDirective_does _ _ fun _ => resumeRule_does r _
  case step => exact quietDirective_does _ _ fun _ => stepRule_does r _
  case setMode => exact quietDirective_does _ _ fun _ => modeRule_does r _
  case resolve => exact quietDirective_does _ _ fun _ => resolveRule_does r _
  case move => exact quietDirective_does _ _ fun _ => moveRule_does r _
  case releaseVacuum => exact quietDirective_does _ _ fun _ => releaseRule_does r _
  case clearLamp => exact quietDirective_does _ _ fun _ => clearLampRule_does r _
  case lock => exact quietDirective_does _ _ fun _ => lockRule_does r _
  case unlock => exact quietDirective_does _ _ fun _ => unlockRule_does r _
  case setKey => exact quietDirective_does _ _ fun _ => setKeyRule_does r _
  case readTally => exact quietDirective_does _ _ fun _ => readTallyRule_does r _
  case closeVolume => exact quietDirective_does _ _ fun _ => closeRule_does r _
  case retake => exact quietDirective_does _ _ fun _ => retakeRule_does r _
  case readClosure => exact quietDirective_does _ _ fun _ => readClosureRule_does r _
  case readTableSettings => exact quietDirective_does _ _ fun _ => readTableRule_does r _
  case readTableCollation => exact quietDirective_does _ _ fun _ => readTableRule_does r _
  case writeLampCalibration =>
    exact quietDirective_does _ _ fun _ => guardedWrite_does r (fun i fs _ _ => writeCalibration_does r i fs) _
  case writeDutyCaps => exact quietDirective_does _ _ fun _ => guardedWrite_does r (fun i fs _ _ => writeCap_does r i fs) _
  case writePreviewDuties =>
    exact quietDirective_does _ _ fun _ => guardedWrite_does r (fun i fs _ _ => writePreview_does r i fs) _
  case writeDoseLimits =>
    exact quietDirective_does _ _ fun _ => guardedWrite_does r (fun i fs _ hv => writeLimits_does r i fs (hv rfl)) _
  case writeRecipes => exact quietDirective_does _ _ fun _ => openWrite_does r (fun i fs _ => writeRecipe_does r i fs) _
  case writeMotionLimits =>
    exact quietDirective_does _ _ fun _ => openWrite_does r (fun i fs _ => writeMotionLimit_does r i fs) _
  case writeSensorPolarities =>
    exact quietDirective_does _ _ fun _ => openWrite_does r (fun i fs _ => writePolarity_does r i fs) _
  case writeFrameGeometry =>
    exact quietDirective_does _ _ fun _ => openWrite_does r (fun i fs _ => writeGeometry_does r i fs) _
  case writeTimers => exact quietDirective_does _ _ fun _ => openWrite_does r (fun i fs _ => writeTimers_does r i fs) _
  case writeNoticeLevels =>
    exact quietDirective_does _ _ fun _ => openWrite_does r (fun i fs _ => writeLevel_does r i fs) _
  case writeTableOther => exact quietDirective_does _ _ fun _ => writeOtherRule_does r _
  case readStatus => exact statusRule_does _ _ _
  case resetPart => exact resetPartRule_does _ _ _
  case storeSettings => exact quietDirective_does _ _ fun _ => storeRule_does r _
  case recallSettings => exact quietDirective_does _ _ fun _ => recallRule_does r _
  case clearNotices => exact quietDirective_does _ _ fun _ => clearNoticesRule_does r _
  case setNoticeEnables => exact quietDirective_does _ _ fun _ => enablesRule_does r _
  case unknown => exact quietDirective_does _ _ fun _ => r
  case badFrame => exact takeBadFrame_does r trivial _
  case directiveDiscard => exact discardDirective_does r trivial
  case directiveDroppedBeforeReset => exact r
  case linkDown => exact loseLock_does r trivial
  case linkUp => exact gainLock_does r trivial
  case upstreamFrameSent => exact frameBoundary_does r trivial
  case linkReset => exact makeLinkReset_does r trivial
  case powerOn => exact beginReset_does r trivial _
  case resetLine => exact beginReset_does r trivial _
  case coreSupply => exact beginReset_does r trivial _
  case resetReleased => exact releaseReset_does r
  case startupRecallDone => exact endStartupRecall_does r trivial
  case storeDone => exact endStore_does r trivial _
  case recallDone => exact endRecall_does r trivial
  case homeArrival => exact arrivalCommand_does r trivial _ _
  case apexArrival => exact arrivalCommand_does r trivial _ _
  case farPositionArrival => exact arrivalCommand_does r trivial _ _
  case vacuumGoodArrival => exact arrivalCommand_does r trivial _ _
  case vacuumGoodRelease => exact arrivalCommand_does r trivial _ _
  case platenDownArrival => exact arrivalCommand_does r trivial _ _
  case platenDownRelease => exact arrivalCommand_does r trivial _ _
  case platenUpArrival => exact arrivalCommand_does r trivial _ _
  case contactArrival => exact arrivalCommand_does r trivial _ _
  case leafEdge => exact arrivalCommand_does r trivial _ _
  case pedalPress => exact arrivalCommand_does r trivial _ _
  case motionExpiry => exact event_does r trivial expireMotion_does
  case manualMotionExpiry => exact event_does r trivial expireManual_does
  case gateRequest => exact event_does r trivial fun k => react_does (judgeGate_does k _)
  case strobeEnd => exact event_does r trivial fun k => react_does (endStrobe_does k _)
  case frameTimeout => exact event_does r trivial fun k => react_does (expireFrame_does k _)
  case channelLockout => exact event_does r trivial fun k => lockOut_does k _ _
  case supplyLoss => exact event_does (r.pins _) trivial badSupply_does
  case supplyGoodSample => exact event_does (r.pins _) trivial goodSupply_does
  case supplyRecovered => exact event_does (r.pins _) trivial fun k => ite_does (supplyReturns_does k) k
  case darkDelayExpiry => exact unlessHeld_does r darkExpiry_does
  case doseTick => exact event_does r trivial fun k => tickDose_does k _
  case volumeClockSecond => exact unlessHeld_does r clockSecond_does
  case frameStart => exact event_does r trivial fun k => react_does (frameStarts_does k _)
  case line => exact event_does r trivial fun k => takeLine_does k _ _
  case frameEnd => exact event_does r trivial fun k => react_does (endFrame_does k _ _)
  case stall => exact event_does r trivial fun k => react_does (endFrame_does k _ _)

/-! ### One millisecond -/

theorem sampleInputs_does (h : Does L s t) : Does L s (sampleInputs t) := by
  unfold sampleInputs
  generalize allInputs = xs
  induction xs generalizing t with
  | nil => exact h
  | cons i xs ih => exact ih (ite_does (arrive_does (h.seq _) _ _) (h.seq _))

theorem runScans_does (h : Does L s t) (b : Side) : Does L s (runScans b t) := by
  unfold runScans
  dsimp only
  split
  · exact startSlot_does h b (Nat.mod_lt _ (by decide))
  · exact ite_does (react_does (endStrobe_does (startSlot_does h b (Nat.mod_lt _ (by decide))) b)) (setStrobe_does (startSlot_does h b (Nat.mod_lt _ (by decide))) b _)

theorem runFrameTimeout_does (h : Does L s t) (b : Side) : Does L s (runFrameTimeout b t) := by
  unfold runFrameTimeout
  split
  · exact h
  · exact ite_does (react_does (expireFrame_does h b)) (h.chan _ _)

theorem runStall_does (h : Does L s t) (b : Side) : Does L s (runStall b t) := by
  unfold runStall
  split
  · exact h
  · next hf =>
    refine ite_does (react_does (endFrame_does h b _)) (h.port b _ ?_)
    rintro ⟨h1, h2⟩
    refine ⟨?_, h2⟩
    unfold Port.shape at *
    cases hs : (t.port b).state <;> simp_all [markersQueued]

theorem runMotion_does (h : Does L s t) : Does L s (runMotion t) := by
  unfold runMotion
  split
  · exact h
  · exact ite_does (expireMotion_does h) (h.seq _)

theorem runManual_does (h : Does L s t) : Does L s (runManual t) := by
  unfold runManual
  split
  · exact h
  · exact ite_does (expireManual_does h) (h.seq _)

theorem runDark_does (h : Does L s t) : Does L s (runDark t) := by
  unfold runDark
  split
  · exact h
  · exact h
  · exact darkExpiry_does h
  · exact h.lamps _

theorem runDose_does (h : Does L s t) : Does L s (runDose t) := ite_does (tickDose_does h _) (h.lock _ rfl id)

theorem runClock_does (h : Does L s t) : Does L s (runClock t) :=
  ite_does (ite_does (clockSecond_does h) (h.clock _ _ _ _)) h

theorem runStore_does (h : Does L s t) : Does L s (runStore t) := by
  unfold runStore
  split
  · exact h
  all_goals exact h.store _ (·.2) fun e => .inl e

theorem onBoth_does {f : Side → State → State} (hf : ∀ b {u}, Does L s u → Does L s (f b u)) (h : Does L s t) :
    Does L s (onBoth f t) := hf .right (hf .left h)

theorem runTimers_does (h : Does L s t) : Does L s (runTimers t) :=
  onBoth_does (fun b _ k => runScans_does k b) <| onBoth_does (fun b _ k => runStall_does k b) <|
    onBoth_does (fun b _ k => runFrameTimeout_does k b) <| runDark_does <| runManual_does <| runMotion_does h

theorem sampleSupply_does (h : Does L s t) : Does L s (sampleSupply t) := ite_does (goodSupply_does h) (badSupply_does h)

theorem runGate_does (h : Does L s t) (b : Side) : Does L s (runGate b t) := ite_does (react_does (judgeGate_does h b)) h

/-- One millisecond. -/
theorem tick_does (h : Does L s t) (l : L) : Does L s (tick t) :=
  event_does h l fun k => runStore_does <| runClock_does <| runDose_does <|
    onBoth_does (fun b _ k => runGate_does k b) <| sampleSupply_does <| sampleInputs_does <| runTimers_does k

end Sys2Proof.Machine
end

