-- ==== Sys2Proof/Laws/Views.lean ====
section
/-! SUPPORT. What is in view and what follows an event: when the preview cuts stand, what entering a state or a motion
does to a sequencer that holds no opening, and when the reaction to an event does nothing. -/

namespace Sys2Proof.Machine

/-! ### The view depends on the collation, the sequencer state, p and the stack -/

theorem inView_congr {s t : State} (hc : t.col = s.col) (hs : t.seq.state = s.seq.state) (hp : t.seq.p = s.seq.p)
    (hk : t.seq.stack = s.seq.stack) (hb : t.seq.stackBank = s.seq.stackBank) (b : Side) : inView t b = inView s b := by
  have hl : leafAt t = leafAt s := by funext i; simp [leafAt, hc]
  have hn : leafCount t = leafCount s := by simp [leafCount, hc]
  have hr : present t = present s := by funext i; simp [present, hl, hn]
  have hbf : presentBefore t = presentBefore s := by
    funext n
    induction n with
    | zero => rfl
    | succ n ih => simp [presentBefore, hr, ih]
  have ht : t.turning = s.turning := by simp [State.turning, hc]
  have hv : sideInView t b = sideInView s b := by simp [sideInView, hp, hr, hbf, ht]
  unfold inView
  rw [hs, hk, hb, hc, hv]

/-- In a state that shows sides, the view depends on p alone. -/
theorem inView_sides {s t : State} (hc : t.col = s.col) (hp : t.seq.p = s.seq.p)
    (h : s.seq.state ≠ .stopped ∧ s.seq.state ≠ .foldWait ∧ s.seq.state ≠ .panelHeld)
    (k : t.seq.state ≠ .stopped ∧ t.seq.state ≠ .foldWait ∧ t.seq.state ≠ .panelHeld) (b : Side) :
    inView t b = inView s b := by
  have e : ∀ u : State, u.seq.state ≠ .stopped ∧ u.seq.state ≠ .foldWait ∧ u.seq.state ≠ .panelHeld →
      inView u b = if u.col.volume.isSome then sideInView u b else none := by
    intro u g
    unfold inView
    cases x : u.seq.state <;> simp_all
  have hv : sideInView t b = sideInView s b := by
    have hl : leafAt t = leafAt s := by funext i; simp [leafAt, hc]
    have hn : leafCount t = leafCount s := by simp [leafCount, hc]
    have hr : present t = present s := by funext i; simp [present, hl, hn]
    have hbf : presentBefore t = presentBefore s := by
      funext n
      induction n with
      | zero => rfl
      | succ n ih => simp [presentBefore, hr, ih]
    have ht : t.turning = s.turning := by simp [State.turning, hc]
    simp [sideInView, hp, hr, hbf, ht]
  rw [e t k, e s h, hc, hv]

/-! ### Replacing the sequencer -/

/-- Nothing else than the sequencer changes when the view stays. -/
theorem reseat_same {q : Sequencer} {s : State} (h : ∀ b, inView (s.setSeq q) b = inView s b) :
    reseat q s = s.setSeq q := by
  simp only [reseat, clearCuts, h, beq_self_eq_true, Bool.and_true]

/-- A second replacement after one that left the view stands for both. -/
theorem setSeq_reseat {q r : Sequencer} {s : State} (hs : r.state = q.state) (hp : r.p = q.p) (hk : r.stack = q.stack)
    (hb : r.stackBank = q.stackBank) : (reseat q s).setSeq r = reseat r s := by
  have h : ∀ b, inView (s.setSeq r) b = inView (s.setSeq q) b := inView_congr rfl hs hp hk hb
  simp only [reseat, clearCuts, h]
  rfl

theorem reseat_setSeq {q r : Sequencer} {s : State} (hs : q.state = s.seq.state) (hp : q.p = s.seq.p)
    (hk : q.stack = s.seq.stack) (hb : q.stackBank = s.seq.stackBank) : reseat r (s.setSeq q) = reseat r s := by
  have h : ∀ b, inView (s.setSeq q) b = inView s b := inView_congr rfl hs hp hk hb
  simp only [reseat, clearCuts, h]
  rfl

/-- Two replacements of which the second leaves the view. -/
theorem reseat_reseat {q r : Sequencer} {s : State}
    (h : ∀ b, inView (s.setSeq r) b = inView (s.setSeq q) b) : reseat r (reseat q s) = reseat r s := by
  have e : ∀ b, inView ((reseat q s).setSeq r) b = inView (s.setSeq r) b :=
    fun b => inView_congr (s := s.setSeq r) (t := (reseat q s).setSeq r) rfl rfl rfl rfl rfl b
  have g : ∀ b, inView (reseat q s) b = inView (s.setSeq q) b :=
    fun b => inView_congr (s := s.setSeq q) (t := reseat q s) rfl rfl rfl rfl rfl b
  have : reseat r (reseat q s) = (reseat q s).setSeq r := reseat_same fun b => by rw [e, g, h]
  rw [this]
  simp only [reseat, clearCuts, h]
  rfl

/-! ### Entering a state from one that holds no opening -/

theorem goto_plain {s : State} (h : s.seq.state ≠ .held) (k : s.seq.state ≠ .panelHeld) (st : SeqState) :
    goto st s = reseat { s.seq with state := st } s := by
  have : ((s.seq.state == .held || s.seq.state == .panelHeld) && s.seq.state != st) = false := by simp [h, k]
  simp only [goto, this, Bool.false_eq_true, if_false, Bool.not_false, Bool.and_true]

theorem enterMotion_plain {s : State} (h : s.seq.state ≠ .held) (k : s.seq.state ≠ .panelHeld) (m : Motion)
    (d : Outputs → Outputs) : enterMotion m d s = reseat { s.seq with
      state := m.state, motionLeft := motionLimit s m, outputs := d s.seq.outputs } s := by
  unfold enterMotion
  rw [goto_plain h k]
  exact setSeq_reseat rfl rfl rfl rfl

/-- From one state that shows sides to another, the preview cuts stand. -/
theorem reseat_sides {q : Sequencer} {s : State}
    (h : s.seq.state ≠ .stopped ∧ s.seq.state ≠ .foldWait ∧ s.seq.state ≠ .panelHeld)
    (k : q.state ≠ .stopped ∧ q.state ≠ .foldWait ∧ q.state ≠ .panelHeld) (hp : q.p = s.seq.p) :
    reseat q s = s.setSeq q :=
  reseat_same fun b => inView_sides (s := s) (t := s.setSeq q) rfl hp h k b

/-! ### The reaction -/

theorem offerBoth_out {s : State} (h : isHeld s = false) : offerBoth s = s := by simp [offerBoth, offer, h]

/-- Nothing follows an event while the volume is not SCANNING. -/
theorem react_still {s : State} (h : s.col.volState ≠ .scanning) : react s = s := by
  have : isHeld s = false := by simp [isHeld, h]
  simp [react, offerBoth_out this, reactSeq, h]

/-- Nothing follows an event in a motion state, STOPPED or FAULT. -/
theorem react_away {s : State} (h : s.seq.state.isRest = false) : react s = s := by
  have : isHeld s = false := by cases e : s.seq.state <;> simp_all [isHeld, SeqState.isRest]
  simp only [react, offerBoth_out this, reactSeq]
  cases e : s.seq.state <;> simp_all [SeqState.isRest]

/-- In HAND_WAIT and FOLD_WAIT only a pending pause can follow. -/
theorem react_waits {s : State} (h : s.seq.state = .handWait ∨ s.seq.state = .foldWait) :
    react s = if s.col.volState = .scanning then takePause s else s := by
  have : isHeld s = false := by rcases h with h | h <;> simp [isHeld, h]
  simp only [react, offerBoth_out this, reactSeq]
  rcases h with h | h <;> simp [h]

/-- A channel at work is not offered anything. -/
theorem offer_working {s : State} {b : Side} (h : (s.chan b).state ≠ .idle) (k : (s.chan b).state ≠ .done) :
    offer b s = s := by
  unfold offer
  split
  · cases e : (s.chan b).state <;> simp_all
  · rfl

/-- No channel takes a target up while capture is not allowed. -/
theorem offerBoth_dark {s : State} (h : captureAllowed s = false) : offerBoth s = s := by simp [offerBoth, offer, h]

theorem withdrawChannel_rest {s : State} {b : Side} (h : (s.chan b).atRest = true) : withdrawChannel b s = s := by
  unfold withdrawChannel
  cases e : (s.chan b).state <;> simp_all [Channel.atRest]

/-- With both channels at rest a withdrawal of the hold changes the hold alone. -/
theorem withdrawHold_rest {s : State} (h : bothAtRest s = true) :
    withdrawHold s = s.setSeq { s.seq with hold := false, waiting := false } := by
  have k : s.chans.left.atRest = true ∧ s.chans.right.atRest = true := by simpa [bothAtRest] using h
  unfold withdrawHold
  rw [withdrawChannel_rest (b := .left) (by exact k.1), withdrawChannel_rest (b := .right) (by exact k.2)]

/-- With both channels at rest the end of the visits leaves both IDLE with nothing held. -/
theorem endVisits_rest {s : State} (h : bothAtRest s = true) : endVisits s = { s with chans := both .afterReset } := by
  have k : s.chans.left.atRest = true ∧ s.chans.right.atRest = true := by simpa [bothAtRest] using h
  simp [endVisits, endVisit, State.chan, State.setChan, Both.get, Both.set, k, both]

end Sys2Proof.Machine
end

