-- ==== Sys2Proof/Tests/Slice0.lean ====
section
/-! SUPPORT. Tests: terms that are not well formed, frames written out from 11 R182 and R183, the spec's worked
figures, single commands, and for every statement with hypotheses states and operands that meet them. -/

namespace Sys2Proof.Tests

set_option Elab.async false

open Sys2Proof Sys2Proof.Machine

/-! ### Ill-formed terms -/

/-- A payload of 513 slots is longer than a frame carries (08 R155). -/
theorem test_wf_refuses_a_long_payload : wellFormed (.pause 1 (List.replicate 512 0)) = false := by decide +kernel

/-- 0x20 is START (11 R183). -/
theorem test_wf_refuses_unknown_of_a_known_code : wellFormed (.unknown 1 0x20) = false := by decide +kernel

/-- Table 12 is a collation table (08 R162). -/
theorem test_wf_refuses_settings_read_of_a_collation_table : wellFormed (.readTableSettings 1 [12, 0]) = false := by
  decide +kernel

/-- Table 9 is a settings table (08 R162). -/
theorem test_wf_refuses_collation_read_of_a_settings_table : wellFormed (.readTableCollation 1 [9, 0]) = false := by
  decide +kernel

/-- Table 8 is the timers (08 R162). -/
theorem test_wf_refuses_other_write_of_a_settings_table : wellFormed (.writeTableOther 1 [8, 0]) = false := by
  decide +kernel

theorem test_wf_takes_each_kind :
    wellFormed (.pause 1 []) ∧ wellFormed (.unknown 1 0x99) ∧ wellFormed (.readTableSettings 1 [9, 0]) ∧
    wellFormed (.readTableCollation 1 [13, 0]) ∧ wellFormed (.writeTableOther 1 [10]) ∧
    wellFormed (.homeArrival true) := by decide +kernel

/-! ### Frames, byte by byte (11 R182, R183, R185) -/

/-- The check value of 11 R185. -/
theorem test_crc_check_value : crc32 [0x31, 0x32, 0x33, 0x34, 0x35, 0x36, 0x37, 0x38, 0x39] = 0xCBF43926 := by
  decide +kernel

/-- A downstream frame around a payload (11 R182): the kind, the tag, the length and the CRC. -/
def frameOf (tag l0 l1 : Byte) (payload : List Byte) : List Byte :=
  0x01 :: tag :: l0 :: l1 :: payload ++ slotBytes (crc32 (0x01 :: tag :: l0 :: l1 :: payload))

/-- SET MODE STEP, direction carried, BACKWARD: code 0x24, mode 1, presence 1, direction 1. -/
theorem test_decode_set_mode :
    decodeFrame (frameOf 5 16 0 [0x24, 0, 0, 0, 1, 0, 0, 0, 1, 0, 0, 0, 1, 0, 0, 0]) = .setMode 5 [1, 1, 1] := by
  decide +kernel

/-- END LOADING: code 0x14 alone. -/
theorem test_decode_end_loading : decodeFrame (frameOf 9 4 0 [0x14, 0, 0, 0]) = .endLoading 9 [] := by decide +kernel

/-- UNLOCK: code 0x32 and the key, least significant byte first. -/
theorem test_decode_unlock :
    decodeFrame (frameOf 1 8 0 [0x32, 0, 0, 0, 0x78, 0x56, 0x34, 0x12]) = .unlock 1 [0x12345678] := by decide +kernel

/-- CLOSE VOLUME with FORCE: code 0x41 and the mask. -/
theorem test_decode_close_volume :
    decodeFrame (frameOf 2 8 0 [0x41, 0, 0, 0, 1, 0, 0, 0]) = .closeVolume 2 [1] := by decide +kernel

/-- WRITE TABLE 5, the motion limits: code 0x61, table 5, entry 6, 4,100 ms. -/
theorem test_decode_write_motion_limit :
    decodeFrame (frameOf 3 16 0 [0x61, 0, 0, 0, 5, 0, 0, 0, 6, 0, 0, 0, 0x04, 0x10, 0, 0]) =
      .writeMotionLimits 3 [6, 4100] := by decide +kernel

/-- READ TABLE 11, the leaf table (08 R162): code 0x60, table 11, entry 3. -/
theorem test_decode_read_leaf_table :
    decodeFrame (frameOf 3 12 0 [0x60, 0, 0, 0, 11, 0, 0, 0, 3, 0, 0, 0]) = .readTableCollation 3 [11, 3] := by
  decide +kernel

/-- CLEAR NOTICES: code 0x70 and the sources' mask. -/
theorem test_decode_clear_notices :
    decodeFrame (frameOf 4 8 0 [0x70, 0, 0, 0, 0, 0x80, 0, 0]) = .clearNotices 4 [0x8000] := by decide +kernel

/-- A payload of 0 bytes carries directive code 0 (08 R158); another kind byte makes a bad frame (08 R156). -/
theorem test_decode_empty_payload_and_bad_kind :
    decodeFrame (frameOf 7 0 0 []) = .unknown 7 0 ∧
    decodeFrame (0x02 :: 7 :: 0 :: 0 :: slotBytes (crc32 [0x02, 7, 0, 0])) = .badFrame 2 := by decide +kernel

/-- The table gives no row any bits. -/
theorem test_no_table_word : decodeTableWord 0 0 = none ∧ State.reset.withFetchWord 0 0 = State.reset := by
  constructor <;> rfl

/-! ### The spec's worked figures -/

/-- 04 R73 and 04 section 4.9. -/
theorem test_effective_ratings :
    effectiveRating ⟨65535, -256, 255, 0⟩ = 49151 ∧ effectiveRating ⟨65535, 255, 255, 0⟩ = 81854 ∧
    effectiveRating ⟨12000, 12, 255, 1⟩ = 12140 ∧ contribution ⟨12000, -8, 255, 1⟩ 200 = 9338 ∧
    contribution ⟨12200, 3, 255, 1⟩ 200 = 9596 := by decide

/-- 04 R75 and 04 section 4.9. -/
theorem test_worked_shot_dose :
    effectiveExposure 8250 = 8400 ∧ effectiveExposure 600 = 600 ∧ effectiveExposure 50000 = 50400 ∧
    shotDose 37709 8400 = 316756 := by decide

/-- Bank L of 04 section 4.9. -/
def workedBank : List Calibration :=
  [⟨12000, 12, 255, 1⟩, ⟨12000, -8, 255, 1⟩, ⟨11800, 0, 255, 1⟩, ⟨12200, 3, 255, 1⟩, ⟨4000, 0, 255, 0⟩,
   ⟨4000, -20, 255, 0⟩] ++ List.replicate 6 ⟨0, 0, 255, 0⟩

/-! ### States for the tests -/

/-- The link is UP after a reset, no volume is held and the store is idle. -/
def up : State := { State.reset with
  start := .running
  store := { State.reset.store with state := .idle }
  link := { State.reset.link with up := true, lock := true } }

def leafA : LeafRecord := { LeafRecord.unwritten with
  written := true, label := [0x41], gathering := some 0, recto := .blank .captured }

def leafB : LeafRecord := { LeafRecord.unwritten with
  written := true, label := [0x42], gathering := some 0, foldout := some (.recto, 0), verso := .blank .rejected }

/-- A volume of two leaves: leaf 0 with its recto CAPTURED and its verso PENDING, leaf 1 with its recto PENDING under a
fold-out of two PENDING panels and its verso REJECTED. -/
def book : Collation where
  volState := .ready
  serial := 1
  volume := some ⟨[0x41], 1, .ltr, 2, 0, 0, none⟩
  cursor := 2
  leaves := [leafA, leafB]
  foldouts := some (List.replicate 2 ⟨0, none, .blank .pending⟩) :: List.replicate 63 none
  gatherings := some ⟨[0x41], 2⟩ :: List.replicate 255 none

/-- The volume in a volume state. -/
def vol (v : VolState) : State := { up with
  col := { book with volState := v }
  tally := { up.tally with sideCounts := ⟨2, 1, 1, 0, 0, 0, 0⟩, panelCounts := ⟨2, 0, 0, 0, 0, 0, 0⟩ } }

/-- The volume in a volume state, with the sequencer at p = 1 in a state of its own. -/
def at1 (v : VolState) (q : SeqState) : State :=
  { vol v with seq := { (vol v).seq with state := q, p := 1 } }

/-- The same with the sequencer changed. -/
def withSeq (f : Sequencer → Sequencer) (s : State) : State := { s with seq := f s.seq }

def platenAloft (q : Sequencer) : Sequencer := { q with levels := { q.levels with platenUp := true } }
def moving (q : Sequencer) : Sequencer := { q with manual := some .liftsDown }
def granted (q : Sequencer) : Sequencer := { q with hold := true }
def knocked (q : Sequencer) : Sequencer := { q with disturbed := true }
def machineTurn (q : Sequencer) : Sequencer := { q with kind := some .machineTurn, turn := some ⟨.forward, 1⟩ }
def onStack (q : Sequencer) : Sequencer := { q with stack := [⟨0, 1, .presentNext⟩], stackBank := some .right }

/-- Both channels in one state. -/
def chansIn (c : ChanState) (s : State) : State := { s with chans := both { Channel.afterReset with state := c } }

def lampsGood (s : State) : State := { s with lamps := { s.lamps with supply := .good } }
def storing (s : State) : State := { s with store := { s.store with state := .storing } }
def recalling (s : State) : State := { s with store := { s.store with state := .recalling } }
def unlocked (s : State) : State := { s with dose := { s.dose with lock := .unlocked } }
def linkDown (s : State) : State := { s with link := { s.link with up := false } }
def resetting (s : State) : State := { s with link := { s.link with resetWaiting := true } }
def held (s : State) : State := { s with start := .held }

def aReply : Reply := ⟨1, 0x62, .ok, []⟩

/-- The transmitter is sending an earlier reply, so that no boundary comes. -/
def sending (s : State) : State := { s with link := { s.link with sending := some (.reply aReply) } }

/-- The replies given so far: the one being sent, and those queued. -/
def replies (s : State) : List Reply :=
  (match s.link.sending with | some (.reply r) => [r] | _ => []) ++ s.link.replies

def full (s : State) : State := { s with link := { s.link with replies := List.replicate 8 aReply } }

/-- The slots of a leaf name: index `i`. -/
def leafName (i : Slot) : List Slot := [0, i, 0, 0, 0]

/-- The slots of a leaf record: a label of one character, class, flags, fold-out index. -/
def leafWire (c : Byte) (cls flags fold : Slot) : List Slot := labelSlots [c] ++ [cls, flags, fold]

/-- OPEN VOLUME's slots: shelf mark A, part 1, LTR, 2 leaves, class 0, start leaf 0, a prior dose. -/
def openWire (dose : Slot) : List Slot := textSlots 36 [0x41] ++ [1, 0, 2, 0, 2, 0, 0, dose]

def shot : ShotCopy := ⟨[200, 200, 200, 200, 0, 0], 8250, 0, 65535, 1000, 3, 1⟩

def liveHeader (b : Side) (x : Target) : Header := ⟨1, b, x, 0, 1, 1, 1, 0, 65535, 1000, .live, none, false⟩

/-- A frame begun at port B. -/
def aFrame : Frame where
  number := 1
  geometry := .factory
  arrived := 0
  dropped := 0
  bad := 0
  excess := 0
  sum := 0
  n := 0
  clips := 0
  crc := 0
  moved := false
  stallLimit := 2000
  stallLeft := 2000

def fault (m : Motion) (c : FaultCause) (owed : Option Dir) (r : Resolution) : FaultRecord := ⟨m, c, some 1, owed, r⟩

def faulted (r : FaultRecord) : State :=
  withSeq (fun q => { q with fault := some r }) (at1 .paused .fault)

/-! ### Single commands -/

/-- START of a READY volume with the platen not up: PLATEN_UP, SCANNING (02 R45). -/
theorem test_start : ∃ t, exec (.start 1 [0, 0, 0]) (vol .ready) = .next t ∧
    (t.seq.state, t.col.volState, t.seq.outputs.platen) = (.platenUp, .scanning, .up) := by
  refine ⟨_, rfl, ?_⟩; decide +kernel

/-- SKIP LEAF of leaf 1 skips its recto and both panels: 3 (01 R19). -/
theorem test_skip_leaf : ∃ t, exec (.skipLeaf 1 (leafName 1)) (vol .ready) = .next t ∧
    (replies t).map (·.results) = [[3]] ∧ t.tally.panelCounts.skipped = 2 := by
  refine ⟨_, rfl, ?_⟩; decide +kernel

/-- A leaf name whose label no leaf carries (01 R17). -/
theorem test_no_such_leaf : ∃ t, exec (.skipLeaf 1 ([1, 0] ++ labelSlots [0x43])) (vol .ready) = .next t ∧
    (replies t).map (·.code) = [.noSuchLeaf] := by
  refine ⟨_, rfl, ?_⟩; decide +kernel

/-- The fourth mismatch is answered KEY_MISMATCH, the next UNLOCK LOCKED whatever its key (04 R89). -/
theorem test_unlock_locked :
    let s := { up with dose := { up.dose with mismatches := 3 } }
    ∃ t u, exec (.unlock 1 [1]) s = .next t ∧ exec (.unlock 1 [0]) t = .next u ∧
      (replies u).map (·.code) = [.keyMismatch, .locked] ∧ u.dose.mismatches = 4 := by
  refine ⟨_, _, rfl, rfl, ?_⟩; decide +kernel

/-- While the settings are recalled SET KEY is BUSY, though the recall has closed the lock (10 R177, 08 R161). -/
theorem test_set_key_in_a_recall :
    ∃ t, exec (.setKey 1 [7]) (recalling up) = .next t ∧ (replies t).map (·.code) = [.busy] ∧ t.settings.key = 0 := by
  refine ⟨_, rfl, ?_⟩; decide +kernel

/-- WRITE TABLE 3 of a volume limit above 48 bits is held at 2^48 - 1 and answered OK_CLAMPED (04 R78). -/
theorem test_volume_limit_clamped :
    ∃ t, exec (.writeDoseLimits 1 [3, 4000000001, 65536, 0]) (unlocked up) = .next t ∧
      t.settings.limits[3]? = some ⟨4000000000, 281474976710655⟩ ∧
      (replies t).map (·.code) = [.okClamped] := by
  refine ⟨_, rfl, ?_⟩; decide +kernel

/-- A geometry of odd width is held one lower (06 R117). -/
theorem test_odd_width :
    ∃ t, exec (.writeFrameGeometry 1 [1, 1025, 1024, 0, 2000, 0, 0, 0]) up = .next t ∧
      (t.settings.geometry.right.width, t.settings.geometry.right.x1) = (1024, 1023) := by
  refine ⟨_, rfl, ?_⟩; decide +kernel

/-- RETAKE of the CAPTURED recto of leaf 0 (07 R143): one entry, seen at opening 0. -/
theorem test_retake :
    ∃ t, exec (.retake 1 (leafName 0 ++ [0])) (vol .paused) = .next t ∧ t.tally.retakes = [(0, .recto)] ∧
      (replies t).map (·.results) = [[1, 0]] := by
  refine ⟨_, rfl, ?_⟩; decide +kernel

/-- CLOSE VOLUME without FORCE names the count of PENDING sides and panels and the lowest PENDING leaf (07 R148). -/
theorem test_close_incomplete :
    ∃ t, exec (.closeVolume 1 [0]) (vol .ready) = .next t ∧
      (replies t).map (fun r => (r.code, r.results)) = [(.incomplete, [2, 2, 1, 0])] := by
  refine ⟨_, rfl, ?_⟩; decide +kernel

/-- With no retry left, a carry that counted no edge is a mispick (02 R33). -/
theorem test_mispick :
    let s := withSeq (fun q => { machineTurn q with retries := 2 }) (at1 .scanning .carry)
    ∃ t, exec (.farPositionArrival (destSide s) true) s = .next t ∧ t.seq.state = .fault ∧
      t.seq.fault.map (fun r => (r.cause, r.owed)) = some (.mispick, some .forward) ∧ t.col.volState = .paused := by
  refine ⟨_, rfl, ?_⟩; decide +kernel

/-- An idle transmitter takes a reply as it comes to be offered (08 R166): the queue is empty again at once, and a ninth
directive is still answered. -/
theorem test_idle_transmitter :
    ∃ t, exec (.lock 1 []) up = .next t ∧ t.link.replies = [] ∧ t.link.sending = some (.reply ⟨1, 0x31, .ok, []⟩) := by
  refine ⟨_, rfl, ?_⟩; decide +kernel

/-- A frame partly received when lock is lost is dropped, and not counted (08 R157). -/
theorem test_partial_frame_dropped :
    ∃ t, exec .linkDown (receiveByte up 0x01) = .next t ∧ (receiveByte up 0x01).link.incoming = [0x01] ∧
      t.link.incoming = [] ∧ t.link.errors = 0 := by
  refine ⟨_, rfl, ?_⟩; decide +kernel

/-! ### States that meet the hypotheses, statement by statement -/

theorem witness_ReplyRestartsTheDarkDelay :
    let a (c : ReplyCode) : Answer := ⟨c, [], up⟩
    ((a .ok).code = .ok ∨ (a .ok).code = .okClamped) ∧ ((a .okClamped).code = .ok ∨ (a .okClamped).code = .okClamped) ∧
    (a .badForm).code ≠ .ok ∧ (a .badForm).code ≠ .okClamped := by decide +kernel

theorem witness_EveryDirectiveTakenIsAnsweredOnce :
    payloadOf (.pause 7 [1]) = some (7, [0x21, 1]) ∧ payloadOf (.unknown 7 0) = some (7, [0]) ∧
    takesDirective (vol .empty) = true ∧
    takesDirective { up with link := { up.link with replies := List.replicate 7 aReply } } = true := by decide +kernel

/-- A refusal with results, COLLATION_BAD's neighbour INCOMPLETE, with seven replies waiting. -/
theorem witness_RefusedDirectiveChangesNothing :
    let s := sending { vol .ready with link := { up.link with replies := List.replicate 7 aReply } }
    let r : Reply := ⟨1, 0x41, .incomplete, [2, 2, 1, 0]⟩
    payloadOf (.closeVolume 1 [0]) = some (1, [0x41, 0]) ∧ takesDirective s = true ∧
    (∃ t, exec (.closeVolume 1 [0]) s = .next (idleBoundary t) ∧ t.link.replies = s.link.replies ++ [r]) ∧
    r.code ≠ .ok ∧ r.code ≠ .okClamped ∧ r.code ≠ .keyMismatch := by
  intro s r
  refine ⟨by decide +kernel, by decide +kernel, ⟨{ s with link := { s.link with replies := s.link.replies ++ [r] } }, ?_, rfl⟩,
    by decide +kernel⟩
  rw [Machine.idleBoundary, if_neg (fun h => nomatch h.2)]; rfl

theorem witness_DirectivesNotTaken :
    payloadOf (.pause 7 []) = some (7, [0x21]) ∧
    ((full up).link.up = true ∧ (full up).link.resetWaiting = false ∧ 8 ≤ (full up).link.replies.length) ∧
    (resetting up).link.resetWaiting = true ∧ (linkDown up).link.up = false := by decide +kernel

theorem witness_VolumeStatesRefuseDirectives :
    (∀ v ∈ [VolState.empty, .loading, .ready, .scanning, .paused, .closed],
      takesDirective (vol v) = true ∧ (vol v).col.volState = v) := by decide +kernel

theorem witness_OpenVolumeMakesANewVolume :
    let limit (s : State) : State := { s with settings := { s.settings with limits := List.replicate 4 ⟨0, 5⟩ } }
    let closed := { limit (vol .closed) with col := { book with volState := .closed, serial := 65535 } }
    let given (ws : List Slot) (k : Nat) : Nat := (ws.getD k 0).toNat
    let inRange (ws : List Slot) : Bool :=
      let start := if (ws.getD 13 0).getLsbD 0 then given ws 14 else 0
      let prior := if (ws.getD 13 0).getLsbD 1 then some (given ws 15 * 2 ^ 32 + given ws 16) else none
      1 ≤ given ws 9 ∧ given ws 9 ≤ 99 ∧ given ws 10 ≤ 1 ∧ 1 ≤ given ws 11 ∧ given ws 11 ≤ 2048 ∧ given ws 12 ≤ 3 ∧
        start < given ws 11 ∧ prior.getD 0 < 2 ^ 48
    let wire (rest : List Slot) : List Slot := textSlots 36 [0x41] ++ rest
    (∀ s ∈ [limit up, closed, storing (limit up), recalling up, vol .paused], takesDirective s = true) ∧
    (limit up).col.volState = .empty ∧ closed.col.volState = .closed ∧ (vol .paused).col.volState = .paused ∧
    (recalling up).store.state = .recalling ∧ (storing (limit up)).store.state ≠ .recalling ∧
    ((openWire 5).drop 1).length ≠ 17 ∧ readText 32 (List.replicate 9 0) = some [] ∧
    readText 32 (List.replicate 9 0x00004101) = some [0x41] ∧ readText 32 (List.replicate 9 0x00001F01) = none ∧
    (∀ ws ∈ [openWire 5, openWire 6, wire [99, 1, 2048, 3, 3, 2047, 65535, 0xFFFFFFFF], wire [100, 0, 2, 0, 0, 0, 0, 0],
        wire [1, 0, 2, 0, 1, 2, 0, 0], wire [1, 0, 2, 0, 2, 0, 65536, 0]],
      ws.length = 17 ∧ readText 32 (ws.take 9) = some [0x41]) ∧
    inRange (openWire 5) = true ∧ inRange (openWire 6) = true ∧
    inRange (wire [99, 1, 2048, 3, 3, 2047, 65535, 0xFFFFFFFF]) = true ∧
    inRange (wire [100, 0, 2, 0, 0, 0, 0, 0]) = false ∧ inRange (wire [1, 0, 2, 0, 1, 2, 0, 0]) = false ∧
    inRange (wire [1, 0, 2, 0, 2, 0, 65536, 0]) = false ∧
    ((limit up).settings.limits.getD (given (openWire 5) 12) ⟨0, 0⟩).volume = 5 ∧ given (openWire 5) 15 = 0 ∧
    given (openWire 5) 16 = 5 ∧ given (openWire 6) 16 = 6 := by decide +kernel

/-- The last leaf by CONTINUE, fold-out 63 and gathering 255: the ends of the tables. -/
theorem witness_LoadingDirectivesWriteTheirTables :
    let s := { vol .loading with col := { book with volState := .loading, cursor := 1 } }
    let r := { LeafRecord.unwritten with written := true, label := [0x42], cls := 15 }
    let ps : List PanelRecord := [⟨15, none, .blank .pending⟩, ⟨0, some 63, .blank .pending⟩]
    let g : GatheringEntry := ⟨[0x42], 64⟩
    takesDirective s = true ∧ s.col.volState = .loading ∧
    (readList 1 32 6 readLeafRecord ([0xFFFFFFFF, 1] ++ leafWire 0x42 15 0 0) = some (0xFFFFFFFF, [r]) ∧
      s.col.cursor + 1 ≤ leafCount s ∧ leafInRange r = true) ∧
    (readList 2 6 3 readPanelRecord [63, 2, 15, 0, 0, 0, 1, 63] = some (63, ps) ∧
      (63 : Slot).toNat ≤ 63 ∧ (∀ p ∈ ps, panelInRange p = true) ∧
      panelsLoaded (s.col.foldouts.set 63 (some ps)) ≤ 256) ∧
    (readList 1 32 4 readGathering ([255, 1] ++ labelSlots [0x42] ++ [64]) = some (255, [g]) ∧
      (255 : Slot).toNat + 1 ≤ 256 ∧ gatheringInRange g = true) := by decide +kernel

/-- A collation that passes every check; and with an unwritten leaf, without gatherings, with an ABSENT leaf that names a
fold-out, with no leaf present, and with an ABSENT start leaf alone: the first check that fails is 1, 2, 4, 7 and 8. -/
theorem witness_EndLoadingInitialisesTheTally :
    let s := { vol .loading with col := { book with volState := .loading } }
    let with' (ls : List LeafRecord) : State := { s with col := { s.col with leaves := ls } }
    let bare := { leafB with foldout := none }
    let noFold (s : State) : State := { s with col := { s.col with foldouts := List.replicate 64 none } }
    (∀ u ∈ [s, with' [leafA, .unwritten], { s with col := { s.col with gatherings := List.replicate 256 none } },
        with' [leafA, { leafB with absent := true }], noFold (with' [{ leafA with absent := true }, { bare with absent := true }]),
        noFold (with' [{ leafA with absent := true }, bare])],
      takesDirective u = true ∧ u.col.volState = .loading ∧ u.col.leaves.length = leafCount u ∧ tallyReadable u = false) ∧
    collationFault s = none ∧ collationFault (with' [leafA, .unwritten]) = some (1, 1) ∧
    collationFault { s with col := { s.col with gatherings := List.replicate 256 none } } = some (2, 0) ∧
    collationFault (with' [leafA, { leafB with absent := true }]) = some (4, 1) ∧
    collationFault (noFold (with' [{ leafA with absent := true }, { bare with absent := true }])) = some (7, 0) ∧
    collationFault (noFold (with' [{ leafA with absent := true }, bare])) = some (8, 0) ∧
    gatheringCount s.col.gatherings = 1 ∧ s.col.leaves.filterMap (fun l => l.foldout.map (·.2)) = [0] ∧
    (panelsOf s 0).isSome = true ∧ s.col.leaves[1]? = some leafB := by decide +kernel

/-- Every change carried, class 15 and HAND_TURN 1 at the ends of their ranges, the label made absent. -/
theorem witness_AmendLeafWritesItsChanges :
    let ws : List Slot := leafName 1 ++ [7] ++ labelSlots [] ++ [15, 1]
    takesDirective (vol .paused) = true ∧ (vol .paused).col.volState = .paused ∧ ws.length = 11 ∧
    ((ws.getD 5 0).getLsbD 0 || (ws.getD 5 0).getLsbD 1 || (ws.getD 5 0).getLsbD 2) = true ∧
    (readLabel ((ws.drop 6).take 3)).isSome = true ∧ findLeaf (vol .paused) (ws.take 5) = .ok 1 ∧
    (ws.getD 9 0).toNat ≤ 15 ∧ (ws.getD 10 0).toNat ≤ 1 := by decide +kernel

theorem witness_SkipLeafSkipsItsPendingTargets :
    ∀ s ∈ [vol .ready, vol .paused], takesDirective s = true ∧ (s.col.volState = .ready ∨ s.col.volState = .paused) ∧
      (leafName 1).length = 5 ∧ findLeaf s (leafName 1) = .ok 1 := by decide +kernel

theorem witness_DiscardVolumeEndsTheVolume :
    ∀ s ∈ [vol .closed, chansIn .firing (at1 .scanning .held), at1 .paused .fault],
      takesDirective s = true ∧ s.col.volState ≠ .empty := by decide +kernel

theorem witness_StartBeginsTheScan :
    let atHome (q : Sequencer) : Sequencer := { q with levels := { q.levels with home := true } }
    readModeDir [0, 0, 0] = some (.auto, none) ∧ readModeDir [2, 1, 1] = some (.hand, some .backward) ∧
    ([0, 0, 0] : List Slot).length = 3 ∧
    ∀ s ∈ [withSeq moving (vol .ready), vol .ready, withSeq platenAloft (vol .ready)],
      takesDirective s = true ∧ s.col.volState = .ready ∧ s.seq.state = .stopped ∧
      (s.seq.manual ≠ none ∨ (s.seq.manual = none ∧ (s.seq.levels.platenUp = false ∨
        (s.seq.levels.platenUp = true ∧ s.seq.levels.home = false)))) ∧
      (withSeq atHome s).seq.levels.home = true := by decide +kernel

theorem witness_ResumeContinuesFromItsRestState :
    let s0 := withSeq moving (at1 .paused .held)
    let s1 := faulted (fault .lay .doubleTurn none .none)
    let s2 := at1 .paused .handWait
    let s3 := at1 .paused .foldWait
    let s4 := at1 .paused .held
    let s5 := withSeq knocked (at1 .paused .held)
    let s6 := withSeq knocked (at1 .paused .foldWait)
    let s7 := withSeq onStack (at1 .paused .panelHeld)
    let s8 := withSeq knocked s7
    (∀ s ∈ [s0, s1, s2, s3, s4, s5, s6, s7, lampsGood s7, s8], takesDirective s = true ∧ s.col.volState = .paused ∧
      s.seq.pendingPause = none) ∧
    s0.seq.manual ≠ none ∧
    (s1.seq.manual = none ∧ s1.seq.state = .fault ∧ (s1.seq.fault.map (·.resolution)).getD .none = .none) ∧
    (∀ s ∈ [s2, s3, s4, s5, s6, s7, lampsGood s7, s8], s.seq.manual = none ∧ s.seq.fault = none) ∧
    s2.seq.state = .handWait ∧ (s3.seq.state = .foldWait ∧ s3.seq.disturbed = false) ∧
    (s4.seq.state = .held ∧ s4.seq.disturbed = false ∧ captureAllowed s4 = false ∧ noneInViewPending s4 = false) ∧
    (s5.seq.state = .held ∧ s5.seq.disturbed = true ∧ bothAtRest s5 = true ∧
      (s5.seq.levels.leftContact && s5.seq.levels.rightContact) = false) ∧
    (s6.seq.state = .foldWait ∧ s6.seq.disturbed = true ∧ s6.seq.levels.platenUp = false) ∧
    (s7.seq.state = .panelHeld ∧ s7.seq.disturbed = false ∧ captureAllowed s7 = false ∧
      captureAllowed (lampsGood s7) = true) ∧
    (s8.seq.state = .panelHeld ∧ s8.seq.disturbed = true ∧ s8.seq.stack = ⟨0, 1, .presentNext⟩ :: [] ∧
      bothAtRest s8 = true ∧ s8.seq.levels.platenUp = false) := by decide +kernel

/-- The volume with the side in view of both banks CAPTURED, PAUSED in HELD at p: at p = 1 the right bank's side carries
fold-out 0, at p = 2 the last leaf has been turned. -/
def settledAt (p : Nat) (panel : TState) (q : Sequencer → Sequencer) : State :=
  let s := at1 .paused .held
  withSeq (fun r => q { r with p := p }) { s with col := { s.col with
    leaves := [{ leafA with verso := .blank (if p = 1 then .captured else .pending) }, { leafB with recto := .blank .captured }]
    foldouts := some (List.replicate 2 ⟨0, none, .blank panel⟩) :: List.replicate 63 none } }

theorem witness_PauseIsTakenAtASafePoint :
    let pending (q : Sequencer) : Sequencer := { q with pendingPause := some .link }
    let s1 := withSeq pending (at1 .scanning .home)
    let s2 := at1 .scanning .platenDown
    let works (s : State) : State := s.setChan .right { Channel.afterReset with state := .firing }
    let holding := withSeq granted (at1 .scanning .held)
    let panel := withSeq onStack (at1 .scanning .panelHeld)
    let settled := withSeq (fun q => { q with hold := true, waiting := true })
      { settledAt 2 .captured id with col := { (settledAt 2 .captured id).col with volState := .scanning } }
    (takesDirective (vol .paused) = true ∧ (vol .paused).col.volState = .paused) ∧
    (takesDirective s1 = true ∧ s1.col.volState = .scanning ∧ s1.seq.pendingPause ≠ none) ∧
    (∀ s ∈ [s2, chansIn .firing holding, works holding, works (at1 .scanning .held), works panel, panel, holding,
        lampsGood settled, at1 .scanning .handWait, at1 .scanning .foldWait],
      takesDirective s = true ∧ s.col.volState = .scanning ∧ s.seq.pendingPause = none) ∧
    s2.seq.state.isMotion = true ∧
    (∀ s ∈ [chansIn .firing holding, works holding], s.seq.state = .held ∧ s.seq.hold = true ∧ bothAtRest s = false ∧
      captureAllowed s = false) ∧
    (let s := works (at1 .scanning .held)
     s.seq.state = .held ∧ s.seq.hold = false ∧ bothAtRest s = false) ∧
    (let s := works panel
     s.seq.state = .panelHeld ∧ s.seq.stackBank = some .right ∧ (s.chan .right).atRest = false ∧ s.seq.hold = false) ∧
    (∀ s ∈ [panel, holding, lampsGood settled, at1 .scanning .handWait, at1 .scanning .foldWait],
      bothAtRest s = true) ∧
    (holding.seq.state = .held ∧ captureAllowed holding = false ∧ noneInViewPending holding = false) ∧
    (let s := lampsGood settled
     s.seq.state = .held ∧ s.seq.hold = true ∧ captureAllowed s = true ∧ noneInViewPending s = true ∧
      s.seq.waiting = true ∧ s.chans = both .afterReset) ∧ panel.seq.hold = false := by decide +kernel

/-- The settled opening: a fold-out to open, at a PENDING panel or by the settled-here mark; the same passed over; a step
to carry out and one that is not possible; STEP mode waiting; a PENDING side ahead, and only behind; and none left. -/
theorem witness_ResumeSettlesTheOpening :
    let keep (q : Sequencer) : Sequencer := q
    let marked (q : Sequencer) : Sequencer := { q with settledHere := ⟨false, true⟩, mode := .step }
    let step (d : Dir) (q : Sequencer) : Sequencer := { q with pendingStep := some d, mode := .step }
    let way (d : Dir) (q : Sequencer) : Sequencer := { q with dir := d }
    let opened (q : Sequencer) : Sequencer := { q with foldMark := ⟨false, true⟩ }
    let rejected := settledAt 1 .rejected marked
    let passed := settledAt 1 .captured marked
    let shut := settledAt 1 .captured opened
    (∀ s ∈ [settledAt 1 .pending keep, rejected, passed, shut, settledAt 2 .captured (step .backward),
        settledAt 2 .captured (step .forward), settledAt 2 .captured marked, settledAt 2 .captured (way .backward),
        settledAt 2 .captured (way .forward)],
      takesDirective s = true ∧ s.col.volState = .paused ∧ s.seq.manual = none ∧ s.seq.fault = none ∧
      s.seq.pendingPause = none ∧ s.seq.state = .held ∧ s.seq.disturbed = false ∧ s.seq.levels.platenUp = false ∧
      (inView s .left).any (isPending s) = false ∧ (inView s .right).any (isPending s) = false ∧
      s.chans = both .afterReset) ∧
    (∀ s ∈ [settledAt 1 .pending keep, rejected, passed], inView s .right = some (.side 1 .recto) ∧
      (leafAt s 1).foldout = some (.recto, 0) ∧ s.seq.foldMark.get .right = false ∧ (leafAt s 0).foldout = none ∧
      panelsUnder s (coveredFoldouts s 0) = [.panel 0 1, .panel 0 2]) ∧
    (stateOf (settledAt 1 .pending keep) (.panel 0 1) = some .pending ∧ rejected.seq.settledHere.get .right = true ∧
      stateOf rejected (.panel 0 1) = some .rejected ∧ passed.seq.settledHere.get .right = true ∧ passed.seq.mode = .step ∧
      passed.seq.pendingStep = none) ∧
    (∀ s ∈ [settledAt 2 .captured (step .backward), settledAt 2 .captured (step .forward), settledAt 2 .captured marked,
        settledAt 2 .captured (way .backward), settledAt 2 .captured (way .forward)],
      inView s .left = some (.side 1 .verso) ∧ (leafAt s 1).foldout ≠ some (.verso, 0) ∧ inView s .right = none) ∧
    (turnedLeaf (settledAt 2 .captured keep) .forward = none ∧ turnedLeaf (settledAt 2 .captured keep) .backward = some 1 ∧
      stateOf (settledAt 2 .captured keep) (.side 0 .verso) = some .pending ∧
      openingOf (settledAt 2 .captured keep) 0 .verso = 1) ∧
    shut.seq.foldMark.get .right = true ∧ (∀ x ∈ allSides shut, stateOf shut x ≠ some .pending) := by decide +kernel

theorem witness_ResumeCarriesOutTheResolution :
    let r1 := fault .platenUp .timeout (some .forward) .hand
    let r2 := fault .lay .doubleTurn (some .forward) .giveBack
    let r3 := fault .pick .mispick (some .forward) .retry
    let r4 : FaultRecord := ⟨.platenDown, .slipped, none, none, .retry⟩
    let r5 := fault .platenDown .timeout none .retry
    let r6 : FaultRecord := ⟨.lay, .doubleTurn, some 0, some .forward, .advance⟩
    let folding (q : Sequencer) : Sequencer := { q with kind := some .foldRaise }
    (∀ r ∈ [r1, r2, r3, r4, r5, r6], let s := faulted r
      takesDirective s = true ∧ s.col.volState = .paused ∧ s.seq.manual = none ∧ s.seq.state = .fault ∧
      s.seq.fault = some r ∧ s.seq.pendingPause = none) ∧
    (r1.resolution = .hand ∧ ¬(r1.motion = .platenUp ∧ (faulted r1).seq.kind = some .foldRaise)) ∧
    r2.resolution = .giveBack ∧
    (r1.motion = .platenUp ∧ (withSeq folding (faulted r1)).seq.kind = some .foldRaise ∧
      (withSeq folding (faulted r1)).seq.fault = some r1) ∧
    (r3.resolution = .retry ∧ r3.cause = .mispick ∧
      (faulted r3).seq.levels.get (farInput (sourceSide (faulted r3))) = false ∧
      (faulted r3).seq.levels.vacuumGood = false) ∧
    (r4.resolution = .retry ∧ r4.cause = .slipped ∧ (faulted r4).seq.levels.platenDown = false) ∧
    (r5.resolution = .retry ∧ r5.cause = .timeout ∧ r5.motion = .platenDown ∧
      (faulted r5).seq.levels.platenDown = false) ∧
    (r6.resolution = .advance ∧ r6.turned = some 0 ∧ r6.owed = some .forward ∧ leafBeyond (faulted r6) r6 = some 1 ∧
      (faulted r6).seq.levels.home = false) ∧
    (∀ m ∈ [Motion.present, .platenUp, .carry, .lay, .home], let r := fault m .timeout (some .forward) .retry
      let s := withSeq (fun q => { machineTurn q with levels := { q.levels with vacuumGood := true } }) (faulted r)
      takesDirective s = true ∧ s.col.volState = .paused ∧ s.seq.manual = none ∧ s.seq.state = .fault ∧
      s.seq.fault = some r ∧ s.seq.pendingPause = none ∧ s.seq.kind = some .machineTurn ∧
      (s.seq.levels.leftContact && s.seq.levels.rightContact) = false ∧ s.seq.levels.platenUp = false ∧
      s.seq.levels.get (farInput (destSide s)) = false ∧ s.seq.levels.vacuumGood = true ∧
      s.seq.levels.home = false) := by decide +kernel

/-- The settled opening at which the sequencer waits in STEP mode, with a PENDING side behind and with none left. -/
def waitsAt (left : TState) : State :=
  let s := settledAt 2 .captured id
  withSeq (fun q => { q with hold := true, waiting := true, mode := .step })
    { s with col := { s.col with
      volState := .scanning
      leaves := [{ leafA with verso := .blank left }, { leafB with recto := .blank .captured }] } }

theorem witness_StepModeAndResolution :
    let r1 := fault .pick .mispick (some .forward) .none
    let r2 : FaultRecord := ⟨.lay, .doubleTurn, some 0, some .forward, .none⟩
    let r3 : FaultRecord := ⟨.lay, .doubleTurn, some 1, some .forward, .none⟩
    (takesDirective (at1 .paused .held) = true ∧ (at1 .paused .held).col.volState = .paused ∧
      dirOf 0 = some .forward ∧ dirOf 1 = some .backward ∧ readModeDir [1, 1, 1] = some (.step, some .backward) ∧
      resolutionOf 1 = some .retry ∧ (at1 .paused .held).seq.state ≠ .fault) ∧
    (∀ r ∈ [r1, r2, r3], takesDirective (faulted r) = true ∧ (faulted r).col.volState = .paused ∧
      (faulted r).seq.state = .fault ∧ (faulted r).seq.fault = some r) ∧
    (r1.cause ≠ .doubleTurn ∧ ¬(Resolution.giveBack = .retry ∨ Resolution.giveBack = .hand)) ∧
    leafBeyond (faulted r3) r3 = none ∧ leafBeyond (faulted r2) r2 ≠ none ∧ r2.cause = .doubleTurn ∧
    r3.cause = .doubleTurn ∧ resolutionOf 4 = some .advance ∧ resolutionOf 3 = some .giveBack := by decide +kernel

/-- The same statement while SCANNING: waiting at the settled opening, a channel at work, and a motion. -/
theorem witness_StepAndModeWhileScanning :
    (∀ st ∈ [TState.pending, .captured], let s := waitsAt st
      takesDirective s = true ∧ s.col.volState = .scanning ∧ s.seq.mode = .step ∧ s.seq.pendingStep = none ∧
      s.seq.state = .held ∧ s.seq.hold = true ∧ bothAtRest s = true ∧ noneInViewPending s = true ∧
      s.seq.waiting = true ∧ s.seq.levels.platenUp = false ∧ turnedLeaf s .forward = none ∧
      turnedLeaf s .backward = some 1 ∧ stateOf s (.side 0 .verso) = some st ∧ openingOf s 0 .verso = 1 ∧ s.seq.p = 2 ∧
      s.seq.dir.opposite = .backward) ∧
    (∀ x ∈ allSides (waitsAt .captured), stateOf (waitsAt .captured) x ≠ some .pending) ∧
    (readModeDir [0, 0, 0] = some (.auto, none) ∧ readModeDir [2, 1, 1] = some (.hand, some .backward)) ∧
    (let s := chansIn .firing (waitsAt .captured)
     s.seq.state = .held ∧ s.seq.hold = true ∧ (s.chan .left).atRest = false ∧ (s.chan (Side.left).other).atRest = false ∧
      bothAtRest s = false ∧ takesDirective s = true ∧ s.col.volState = .scanning) ∧
    (let s := withSeq (fun q => { q with mode := .step }) (at1 .scanning .platenDown)
     takesDirective s = true ∧ s.col.volState = .scanning ∧ s.seq.state.isRest = false ∧ s.seq.mode = .step ∧
      turnedLeaf s .forward = some 1 ∧ s.seq.pendingStep = none) := by decide +kernel

theorem witness_ManualMotions :
    (takesDirective up = true ∧ up.col.volState ≠ .scanning ∧ up.seq.manual = none) ∧
    (takesDirective (withSeq moving (at1 .paused .held)) = true ∧
      (withSeq moving (at1 .paused .held)).col.volState ≠ .scanning ∧
      (withSeq moving (at1 .paused .held)).seq.manual ≠ none) ∧
    manualOf 7 = some .platenUp ∧ manualOf 8 = some .platenDown ∧ manualOf 9 = some .armHome ∧
    manualOf 10 = some .liftsDown ∧
    ∀ m ∈ [ManualMotion.platenUp, .platenDown, .armHome], let s := withSeq (fun q => { q with manual := some m }) up
      s.start ≠ .held ∧ s.seq.state.motion = none ∧ s.seq.manual = some m := by decide +kernel

theorem witness_TheConservationLock :
    (∀ s ∈ [up, recalling up, storing up, unlocked up, unlocked (storing up)], takesDirective s = true) ∧
    up.dose.lock = .closed ∧ up.store.state = .idle := by decide +kernel

def closure : Closure where
  shelfMark := [0x41]
  part := 1
  serial := 1
  sideCounts := .zero
  panelCounts := .zero
  forced := 0
  priorDose := none
  volDose := 0
  largestDose := 0
  largestTarget := none
  seconds := 0
  gatherings := []
  digest := 0

theorem witness_ReadsChangeNothing :
    let closed := { vol .closed with tally := { (vol .closed).tally with closure := some closure } }
    takesDirective (vol .ready) = true ∧ (vol .ready).col.volState ≠ .empty ∧ (vol .ready).col.volState ≠ .loading ∧
    1 ≤ (1 : Slot).toNat ∧ (64 : Slot).toNat ≤ 64 ∧
    takesDirective closed = true ∧ closed.col.volState = .closed ∧ closed.tally.closure = some closure ∧
    (9 : Slot).toNat ≤ 9 ∧ 10 ≤ (10 : Slot).toNat ∧ (13 : Slot).toNat ≤ 13 := by decide +kernel

theorem witness_RetakeAsksForASideAgain :
    let s := vol .paused
    let many := { s with tally := { s.tally with retakes := List.replicate 128 (0, .verso) } }
    takesDirective s = true ∧ s.col.volState = .paused ∧ (leafName 0 ++ [0]).length = 6 ∧
    findLeaf s ((leafName 0 ++ [0]).take 5) = .ok 0 ∧ findLeaf s ((leafName 1 ++ [1]).take 5) = .ok 1 ∧
    faceOf 0 = some .recto ∧ faceOf 1 = some .verso ∧
    fieldsOf s (.side 0 .recto) = some (.blank .captured) ∧ fieldsOf s (.side 0 .verso) = some (.blank .pending) ∧
    fieldsOf s (.side 1 .verso) = some (.blank .rejected) ∧ s.tally.retakes.length < 128 ∧
    (takesDirective many = true ∧ many.col.volState = .paused ∧ 128 ≤ many.tally.retakes.length) ∧
    fieldsOf { s with col := { s.col with leaves := [{ leafA with absent := true, recto := .blank .absent }, leafB] } }
      (.side 0 .recto) = some (.blank .absent) := by decide +kernel

/-- A settled opening while SCANNING, its REJECTED side in view of the left bank: that channel IDLE and DONE with the
other DONE, and DONE with the other at work. -/
def retaking : List State :=
  let s := lampsGood (waitsAt .captured)
  let chans (l r : ChanState) : State := { s with
    chans := ⟨{ Channel.afterReset with state := l }, { Channel.afterReset with state := r }⟩ }
  [chans .idle .done, chans .done .done, chans .done .firing]

/-- The same statement while SCANNING. -/
theorem witness_RetakeWhileScanning :
    (leafName 1 ++ [1]).length = 6 ∧ faceOf 1 = some .verso ∧
    (∀ s ∈ retaking, takesDirective s = true ∧ s.col.volState = .scanning ∧ s.tally.retakes.length < 128 ∧
      findLeaf s ((leafName 1 ++ [1]).take 5) = .ok 1) ∧
    (∀ s ∈ retaking, fieldsOf s (.side 1 .verso) = some (.blank .rejected) ∧ s.seq.state = .held ∧ s.seq.hold = true ∧
      captureAllowed s = true ∧ inView s .left = some (.side 1 .verso) ∧ inView s .right = none) ∧
    (∀ s ∈ retaking, (s.port .left).state = .idle ∧ 1 ≤ (recipeOf s (.side 1 .verso)).shotCount ∧
      ((s.chan .left).state = .done ∨ ((s.chan .left).state = .idle ∧ (s.chan .left).target = none)) ∧
      ((s.chan .right).state = .done ∨ (s.chan .right).atRest = false)) := by decide +kernel

theorem witness_CloseVolumeClosesTheAccount :
    let s := vol .ready
    let done := { vol .paused with tally := { s.tally with sideCounts := .zero, panelCounts := .zero } }
    (takesDirective s = true ∧ s.col.volState = .ready ∧ s.seq.manual = none ∧ (0 : Slot).getLsbD 0 = false ∧
      0 < s.tally.sideCounts.pending + s.tally.panelCounts.pending) ∧
    (1 : Slot).getLsbD 0 = true ∧
    (takesDirective (withSeq moving (vol .paused)) = true ∧ (withSeq moving (vol .paused)).col.volState = .paused ∧
      (withSeq moving (vol .paused)).seq.manual ≠ none) ∧
    (takesDirective done = true ∧ done.col.volState = .paused ∧ done.seq.manual = none ∧
      done.tally.sideCounts.pending + done.tally.panelCounts.pending = 0 ∧ done.seq.state ≠ .held ∧
      done.seq.state ≠ .panelHeld) ∧
    (takesDirective (at1 .paused .held) = true ∧ (at1 .paused .held).seq.manual = none ∧
      (at1 .paused .held).seq.state = .held) ∧
    (let dosed := { s with col := { book with
       leaves := [{ leafA with verso := { TallyFields.blank .pending with dose := 3 } },
         { leafB with recto := { TallyFields.blank .pending with dose := 3 } }] } }
     s.col.volume.isSome = true ∧ gatheringCount s.col.gatherings = 1 ∧ (closureOf s 0).largestDose = 0 ∧
      (closureOf dosed 0).largestDose = 3 ∧ (closureOf dosed 0).largestTarget = some (.side 0 .verso)) := by decide +kernel

theorem witness_GuardedWritesHoldTheirValues :
    takesDirective (unlocked up) = true ∧ (unlocked up).store.state = .idle ∧ (unlocked up).dose.lock = .unlocked ∧
    (11 : Slot).toNat ≤ 11 ∧ (3 : Slot).toNat ≤ 3 ∧ (unlocked up).col.volState = .empty ∧
    takesDirective (unlocked (vol .closed)) = true ∧ (unlocked (vol .closed)).store.state = .idle ∧
    (unlocked (vol .closed)).col.volState = .closed := by decide +kernel

/-- One index past the table, with the lock OPEN and the volume EMPTY; the same with the volume READY, the lock CLOSED,
and a store in flight. -/
theorem witness_GuardedWritesAreJudgedInOrder :
    let u := unlocked up
    let r := unlocked (vol .ready)
    (∀ s ∈ [u, r, up, storing u], takesDirective s = true) ∧ ([12, 0] : List Slot).length = 2 ∧
    ([12, 0, 0] : List Slot).length = 3 ∧ ([4, 0, 0, 0] : List Slot).length = 4 ∧
    ([12, 0, 0] : List Slot).length ≠ 2 ∧ (storing u).store.state ≠ .idle ∧
    (up.store.state = .idle ∧ up.dose.lock = .closed) ∧
    (r.store.state = .idle ∧ r.dose.lock = .unlocked ∧ r.col.volState ≠ .empty ∧ r.col.volState ≠ .closed) ∧
    (u.store.state = .idle ∧ u.dose.lock = .unlocked ∧ ¬(u.col.volState ≠ .empty ∧ u.col.volState ≠ .closed) ∧
      12 ≤ (([12, 0] : List Slot).getD 0 0).toNat ∧ 4 ≤ (([4, 0, 0, 0] : List Slot).getD 0 0).toNat) := by
  decide +kernel

theorem witness_OpenWritesHoldTheirValues :
    takesDirective up = true ∧ up.store.state = .idle ∧ takesDirective (storing up) = true ∧
    (storing up).store.state ≠ .idle ∧ (15 : Slot).toNat ≤ 15 ∧ (1 : Slot).toNat ≤ 1 ∧
    6 < (7 : Slot).toNat ∧ 15 < (16 : Slot).toNat ∧ 1 < (2 : Slot).toNat ∧
    (15 :: recipeSlots .factory).length = 27 ∧ (15 :: recipeSlots .factory).getD 0 0 = 15 ∧
    (1 :: geometrySlots .factory).length = 8 ∧ (1 :: geometrySlots .factory).getD 0 0 = 1 := by decide +kernel

theorem witness_StoreRecallAndResetBegin :
    ∀ s ∈ [up, storing up, recalling up, vol .paused], takesDirective s = true := by decide +kernel

/-- A clear source, and one at 255 repeats. -/
theorem witness_RaisingANotice :
    let most : SourceState := ⟨true, true, 255, [1], some 0⟩
    let s := { up with notices := { up.notices with sources := up.notices.sources.set 15 most } }
    up.notices.sources[Source.lampSupply.num]? = some .clear ∧ SourceState.clear.flag = false ∧
    s.notices.sources[Source.restarted.num]? = some most ∧ most.flag = true ∧
    (0x8000 : Slot).getLsbD Source.restarted.num = true ∧ (14 : Nat) ≠ Source.restarted.num := by decide +kernel

theorem witness_NoticeDirectives : takesDirective up = true ∧ takesDirective (storing up) = true := by decide +kernel

/-- Both states of the link; a full reply queue; and a frame of a bad kind, one too long, one whose length is not the
payload's, one of five payload bytes and one of a wrong CRC. -/
theorem witness_FramesThatCarryNoDirective :
    up.link.up = true ∧ (linkDown up).link.up = false ∧
    ((full up).link.resetWaiting = false ∧ 8 ≤ (full up).link.replies.length) ∧
    ([0, 0, 0, 0] : List Byte).length = 4 ∧ (0x81 : Byte) ≠ 0x01 ∧ 2048 < (8 : Byte).toNat * 256 + (1 : Byte).toNat ∧
    ([] : List Byte).length ≠ (0 : Byte).toNat * 256 + (4 : Byte).toNat ∧ ([0, 0, 0, 0, 0] : List Byte).length % 4 ≠ 0 ∧
    ([0, 0, 0, 0] : List Byte) ≠ slotBytes (crc32 ([1, 9, 0, 0] ++ [])) := by decide +kernel

theorem witness_TheLinkGoesDownAndUp :
    let pending (q : Sequencer) : Sequencer := { q with pendingPause := some .pause }
    let away : State := { linkDown up with link := { (linkDown up).link with sending := some (.reply aReply) } }
    let first : State := { linkDown up with start := .awaitLink }
    (linkDown up).link.up = false ∧
    (up.link.up = true ∧ up.link.resetWaiting = false ∧ up.col.volState ≠ .scanning) ∧
    (let s := withSeq pending (at1 .scanning .home)
     s.link.up = true ∧ s.link.resetWaiting = false ∧ s.seq.pendingPause ≠ none) ∧
    (let s := at1 .scanning .lay
     s.link.up = true ∧ s.link.resetWaiting = false ∧ s.col.volState = .scanning ∧ s.seq.pendingPause = none ∧
      s.seq.state.isMotion = true) ∧
    (let s := at1 .scanning .handWait
     s.link.up = true ∧ s.link.resetWaiting = false ∧ s.col.volState = .scanning ∧ s.seq.pendingPause = none ∧
      s.seq.state = .handWait ∧ bothAtRest s = true) ∧
    (let s := resetting (full up)
     s.link.up = true ∧ s.link.resetWaiting = true ∧ s.link.replies ≠ [] ∧ s.start ≠ .held ∧
      s.col.volState ≠ .scanning) ∧
    (held up).start = .held ∧ State.reset.start = .recall ∧ (up.start = .running ∧ up.link.up = true) ∧
    (away.start = .running ∧ away.link.up = false ∧ away.link.sending ≠ none) ∧
    (first.start = .awaitLink ∧ first.link.replies = [] ∧ first.notices.master = false ∧
      (first.port .left).queue = [] ∧ (first.port .right).queue = [] ∧ first.link.sending = none) := by decide +kernel

/-- The link pause in HELD with a channel working, under the hold and with it withdrawn, in PANEL_HELD with the stack's
channel working, and at the safe points of both: as for PAUSE, on a link that is UP with no reset waiting. -/
theorem witness_TheLinkPauseInARestState :
    let works (s : State) : State := s.setChan .right { Channel.afterReset with state := .firing }
    let holding := withSeq granted (at1 .scanning .held)
    let panel := withSeq onStack (at1 .scanning .panelHeld)
    let settled := lampsGood (waitsAt .captured)
    (∀ s ∈ [works holding, works (at1 .scanning .held), works panel, panel, holding, settled],
      s.link.up = true ∧ s.link.resetWaiting = false ∧ s.col.volState = .scanning ∧ s.seq.pendingPause = none) ∧
    (∀ s ∈ [works holding, holding], s.seq.state = .held ∧ s.seq.hold = true ∧ captureAllowed s = false) ∧
    bothAtRest (works holding) = false ∧ bothAtRest holding = true ∧ noneInViewPending holding = false ∧
    (let s := works (at1 .scanning .held)
     s.seq.state = .held ∧ s.seq.hold = false ∧ bothAtRest s = false) ∧
    (∀ s ∈ [works panel, panel], s.seq.state = .panelHeld ∧ s.seq.stackBank = some .right ∧ s.seq.hold = false) ∧
    ((works panel).chan .right).atRest = false ∧ bothAtRest panel = true ∧
    (settled.seq.state = .held ∧ settled.seq.hold = true ∧ captureAllowed settled = true ∧
      noneInViewPending settled = true ∧ settled.seq.waiting = true ∧ settled.chans = both .afterReset) := by
  decide +kernel

/-- A reply waits; URGENT source 15 waits with nothing else; NORMAL source 4 alone; a burst at one port, and at
both. -/
theorem witness_TheArbiterChoosesTheNextFrame :
    let set (i : Nat) (s : State) : State := { s with notices := {
      sources := s.notices.sources.set i ⟨true, false, 0, [], none⟩, master := true } }
    let burst : Burst := .line .left 1 0 []
    let one := up.setPort .left { up.port .left with queue := [burst] }
    let two := one.setPort .right { up.port .right with queue := [burst] }
    ((linkDown up).link.up = false ∧ (linkDown up).link.resetWaiting = false ∧ (sending up).link.sending ≠ none) ∧
    ((resetting (linkDown (full up))).link.up = false ∧ (resetting (linkDown (full up))).link.replies ≠ []) ∧
    (up.link.up = true ∧ up.link.sending = none ∧ up.link.resetWaiting = false) ∧
    ({ up with link := { up.link with replies := [aReply] } }.link.replies = aReply :: [] ∧ up.link.up = true) ∧
    (let s := set 15 (set 4 up)
     s.link.up = true ∧ s.link.replies = [] ∧ s.link.resetWaiting = false ∧ eligible s 15 = true ∧
      noticeLevel s 15 = .urgent ∧ ∀ j, j < 15 → eligible s j = true → noticeLevel s j ≠ noticeLevel s 15) ∧
    (let s := set 4 up
     s.link.up = true ∧ s.link.replies = [] ∧ eligible s 4 = true ∧
      (∀ j, j < 16 → eligible s j = true → noticeLevel s j ≠ .urgent) ∧
      ∀ j, j < 4 → eligible s j = true → noticeLevel s j ≠ noticeLevel s 4) ∧
    ((∀ i, i < 16 → eligible one i = false) ∧ (one.port .left).queue = burst :: [] ∧
      (one.port .right).queue = []) ∧
    ((∀ i, i < 16 → eligible two i = false) ∧ (two.port .left).queue = burst :: [] ∧
      two.link.lastServed = .right) ∧
    (∀ i, i < 16 → eligible up i = false) ∧ (up.port .left).queue = [] ∧ (up.port .right).queue = [] := by
  decide +kernel

theorem witness_ResetsPutEveryBlockAtItsResetValues :
    (up.start ≠ .held ∧ up.link.resetWaiting = false) ∧
    ((resetting up).start ≠ .held ∧ (resetting up).link.resetWaiting = true ∧ (resetting up).link.replies = []) ∧
    ((resetting (linkDown (full up))).link.resetWaiting = true ∧ (linkDown (full up)).link.up = false) ∧
    ((full up).link.replies ≠ [] ∧ (full up).link.up = true) ∧ (held up).start = .held := by decide +kernel

/-- The image marked valid: its CRC is that of its contents. -/
def validImage (s : State) : State := { s with store := { s.store with torn := false, crc := settingsCrc s.store.image } }

theorem validImage_crc (s : State) : (validImage s).store.crc = settingsCrc (validImage s).store.image := rfl

theorem witness_StartUpStoresAndRecalls :
    ((validImage State.reset).store.crc = settingsCrc (validImage State.reset).store.image ∧
      (validImage (recalling up)).store.crc = settingsCrc (validImage (recalling up)).store.image) ∧
    ((held up).start = .held ∧ up.start ≠ .held) ∧
    (State.reset.start = .recall ∧ State.reset.link.lock = false ∧ State.reset.store.torn = true) ∧
    ({ State.reset with link := { State.reset.link with lock := true } }.start = .recall ∧ up.start ≠ .recall) ∧
    ((validImage State.reset).start = .recall ∧ (validImage State.reset).link.lock = false ∧
      (validImage State.reset).store.torn = false) ∧
    ((storing up).store.state = .storing ∧ up.store.state ≠ .storing) ∧
    ((recalling up).start = .running ∧ (recalling up).store.state = .recalling ∧ (recalling up).store.torn = true ∧
      up.store.state ≠ .recalling) ∧
    (validImage (recalling up)).store.torn = false := by
  refine ⟨⟨validImage_crc _, validImage_crc _⟩, ?_⟩; decide +kernel

def atHome (q : Sequencer) : Sequencer := { q with levels := { q.levels with home := true } }

theorem witness_TheMachineTurn :
    let at' (q : SeqState) : State := withSeq machineTurn (at1 .scanning q)
    let edged (n : Nat) (q : Sequencer) : Sequencer :=
      { q with edges := n, levels := { q.levels with vacuumGood := decide (n = 1) } }
    let doubled (q : Sequencer) : Sequencer := { q with double := true }
    (∀ q ∈ [SeqState.platenUp, .pick, .carry, .lay], let s := at' q
      s.start ≠ .held ∧ s.col.volState = .scanning ∧ s.seq.manual = none ∧ s.seq.kind = some .machineTurn ∧
      s.seq.levels.get (farInput (sourceSide s)) = false ∧ s.seq.levels.get (farInput (destSide s)) = false ∧
      s.seq.levels.vacuumGood = false ∧ s.seq.state = q) ∧
    ((withSeq (edged 1) (at' .carry)).seq.edges = 1 ∧ (withSeq (edged 1) (at' .carry)).seq.levels.vacuumGood = true) ∧
    ((withSeq (edged 0) (at' .carry)).seq.edges = 0 ∧
      (at' .carry).seq.retries < (at' .carry).settings.pickRetries) ∧
    ((at' .lay).seq.double = false ∧ (at' .lay).seq.levels.home = false) ∧
    ((withSeq doubled (at' .lay)).seq.double = true ∧ bothAtRest (withSeq doubled (at' .lay)) = true ∧
      (withSeq doubled (at' .lay)).seq.turn = some ⟨.forward, 1⟩) ∧
    (∀ k ∈ [SeqKind.handRaise, .foldRaise, .restore],
      let s := withSeq (fun q => { q with kind := some k, turn := some ⟨.backward, 1⟩ }) (at1 .scanning .platenUp)
      s.start ≠ .held ∧ s.col.volState = .scanning ∧ s.seq.manual = none ∧ s.seq.state = .platenUp ∧ s.seq.kind = some k ∧
      s.seq.turn = some ⟨.backward, 1⟩ ∧ s.seq.pendingPause = none ∧ s.seq.levels.home = false ∧
      (s.seq.levels.leftContact && s.seq.levels.rightContact) = false ∧ (withSeq atHome s).seq.levels.home = true) := by
  decide +kernel

/-- Platen up outside PLATEN_UP and in it, at a port that is ARMED with a side's header fired, ARMED with one not fired
and with a panel's, and in RECEIVING. -/
theorem witness_PlatenUpMarksTheShotMoved :
    let port (h : Header) : Port := { Port.afterReset with state := .armed, armed := some h }
    let side := liveHeader .right (.side 1 .recto)
    let fired (h : Header) : Header := { h with fired := some (gateFigures up .right shot, 5) }
    ∀ p ∈ [port (fired side), port side, port (fired (liveHeader .right (.panel 0 1))),
        { port (fired side) with state := .receiving, frame := some aFrame }],
      ∀ q ∈ [SeqState.held, .platenUp], let s := withSeq machineTurn ((at1 .scanning q).setPort .right p)
        s.start ≠ .held ∧ s.col.volState = .scanning ∧ s.seq.manual = none ∧ s.seq.state = q ∧ s.port .right = p := by
  decide +kernel

theorem factory_law : Settings.factory.law := by
  unfold Settings.law Calibration.law DoseLimit.law Recipe.law Shot.law Geometry.law; decide +kernel

theorem witness_TheOpeningIsPresentedAndHeld :
    let leaning (q : Sequencer) : Sequencer := { q with levels := { q.levels with rightContact := true } }
    let pausing (q : Sequencer) : Sequencer := { q with pendingPause := some .pause }
    (∀ s ∈ [at1 .scanning .home, at1 .scanning .present, withSeq leaning (at1 .scanning .present),
        at1 .scanning .platenDown, withSeq pausing (at1 .scanning .platenDown)],
      s.start ≠ .held ∧ s.col.volState = .scanning ∧ s.seq.manual = none ∧
      (s.seq.levels.leftContact && s.seq.levels.rightContact) = false ∧ s.seq.levels.platenDown = false) ∧
    (at1 .scanning .present).seq.levels.get (contactInput (Side.left).other) = false ∧
    (withSeq leaning (at1 .scanning .present)).seq.levels.get (contactInput (Side.left).other) = true ∧
    (let s := withSeq pausing (at1 .scanning .platenDown)
     s.seq.pendingPause = some .pause ∧ bothAtRest s = true) ∧
    (let s := at1 .scanning .platenDown
     s.seq.pendingPause = none ∧ noneInViewPending s = false ∧ captureAllowed s = false ∧
     captureAllowed (lampsGood s) = true ∧ noneInViewPending (lampsGood s) = false ∧
     s.chan .left = .afterReset ∧ s.chan .right = .afterReset ∧ (s.port .left).state = .idle ∧
     (s.port .right).state = .idle ∧ inView s .right = some (.side 1 .recto) ∧
     isPending s (.side 1 .recto) = true ∧ 1 ≤ (recipeOf s (.side 1 .recto)).shotCount ∧
     (inView { s with seq := { s.seq with p := 0 } } .left).any (isPending s) = false) ∧
    (∀ s ∈ [settledAt 2 .captured (fun q => { q with mode := .step }), settledAt 0 .captured id],
      let u := withSeq (fun q => { q with state := .platenDown })
        { s with col := { s.col with volState := .scanning, leaves := [{ leafA with verso := .blank .skipped },
          { leafB with recto := .blank .captured, foldout := none }] } }
      u.start ≠ .held ∧ u.col.volState = .scanning ∧ u.seq.manual = none ∧ u.seq.state = .platenDown ∧
      u.seq.pendingPause = none ∧ noneInViewPending u = true ∧ u.chans = both .afterReset ∧ (leafAt u 0).foldout = none ∧
      (leafAt u 1).foldout = none ∧ u.seq.pendingStep = none ∧
      ∀ x ∈ allSides u, stateOf u x ≠ some .pending) ∧
    (settledAt 2 .captured (fun q => { q with mode := .step })).seq.mode = .step ∧ (settledAt 0 .captured id).seq.mode ≠ .step ∧
    settingsLaw (lampsGood (at1 .scanning .platenDown)) := by
  refine ⟨by decide +kernel, by decide +kernel, by decide +kernel, by decide +kernel, by decide +kernel,
    by decide +kernel, by decide +kernel, by decide +kernel, factory_law, factory_law⟩

theorem witness_EdgesAndReleases :
    (at1 .scanning .carry).start ≠ .held ∧ (at1 .scanning .carry).seq.state = .carry ∧
    (at1 .scanning .carry).seq.state.isRest = false ∧ (at1 .paused .held).col.volState ≠ .scanning ∧
    ∀ s ∈ [at1 .scanning .held, at1 .scanning .foldWait, at1 .scanning .lay, up], s.start ≠ .held ∧
      s.seq.manual = none ∧ s.seq.state ∉ [SeqState.home, .carry, .pick, .present, .platenDown, .platenUp] := by
  decide +kernel

theorem witness_ThePedalAndTheHeldPanel :
    let owing (q : Sequencer) : Sequencer := { q with owed := some .forward }
    let s1 := withSeq owing (at1 .scanning .handWait)
    let s2 := withSeq atHome s1
    let s3 := withSeq onStack (at1 .scanning .foldWait)
    let s4 := withSeq onStack (at1 .scanning .panelHeld)
    ((at1 .scanning .lay).start ≠ .held ∧ (at1 .scanning .lay).seq.state.isRest = false ∧
      (at1 .paused .handWait).col.volState ≠ .scanning) ∧
    (s1.start ≠ .held ∧ s1.seq.state = .handWait ∧ s1.col.volState = .scanning ∧ s1.seq.levels.home = false) ∧
    (s2.seq.state = .handWait ∧ s2.seq.levels.home = true ∧
      (s2.seq.levels.leftContact && s2.seq.levels.rightContact) = false) ∧
    (s3.start ≠ .held ∧ s3.seq.stack = ⟨0, 1, .presentNext⟩ :: [] ∧ s3.seq.stackBank = some .right ∧
      s3.col.volState = .scanning ∧ s3.seq.pendingPause = none ∧ isPending s3 (.panel 0 1) = true ∧
      s3.seq.state = .foldWait ∧ captureAllowed s3 = false ∧ captureAllowed (lampsGood s3) = true ∧
      isPending (lampsGood s3) (.panel 0 1) = true) ∧
    (s4.seq.stack = ⟨0, 1, .presentNext⟩ :: [] ∧ s4.seq.stackBank = some .right ∧ isPending s4 (.panel 0 1) = true ∧
      s4.seq.pendingPause = none ∧ s4.seq.state = .panelHeld ∧ bothAtRest s4 = true) ∧
    (∀ es ∈ [[(⟨0, 1, .advanceNext⟩ : StackEntry)], [⟨0, 2, .advanceNext⟩], [⟨0, 2, .advanceNext⟩, ⟨1, 1, .advanceNext⟩],
        [⟨0, 1, .presentNext⟩]],
      let pending (st : TState) : State := { at1 .scanning .foldWait with col := { book with
        volState := .scanning
        foldouts := [some [⟨0, some 1, .blank .captured⟩, ⟨0, none, .blank .captured⟩], some [⟨0, none, .blank st⟩]] ++
          List.replicate 62 none } }
      ∀ st ∈ [TState.pending, .captured],
      let s := withSeq (fun q => { q with stack := es, stackBank := some .right }) (pending st)
      s.start ≠ .held ∧ s.seq.stack = es ∧ s.seq.stackBank = some .right ∧ s.col.volState = .scanning ∧
      s.seq.pendingPause = none ∧ s.seq.state = .foldWait ∧ ((panelsOf s 0).getD []).length = 2 ∧
      isPending s (.panel 0 1) = false ∧ panelsUnder s (coveredFoldouts s 1) = [.panel 1 1] ∧
      stateOf s (.panel 1 1) = some st ∧ (s.seq.levels.leftContact && s.seq.levels.rightContact) = false) := by
  decide +kernel

/-- The same statement in HELD, and in PANEL_HELD with a shot in flight, a gate asked for, and a pause pending. -/
theorem witness_ThePedalWithdrawsTheHold :
    let s4 := withSeq onStack (at1 .scanning .panelHeld)
    ((at1 .scanning .held).start ≠ .held ∧ (at1 .scanning .held).seq.state = .held) ∧
    (let pausing (s : State) : State := withSeq (fun q => { q with pendingPause := some .link }) s
     let firing := s4.setChan .right { Channel.afterReset with state := .firing }
     let gating := (s4.setChan .right { Channel.afterReset with state := .gating }).setPort .right
       { Port.afterReset with state := .armed }
     (∀ s ∈ [firing, gating, pausing gating, pausing s4], s.start ≠ .held ∧ s.seq.stack = ⟨0, 1, .presentNext⟩ :: [] ∧
       s.seq.stackBank = some .right ∧ s.col.volState = .scanning ∧ s.seq.state = .panelHeld ∧
       isPending s (.panel 0 1) = true) ∧
     ((firing.chan .right).state = .firing ∧ (firing.chan .left).state = .idle ∧ (firing.chan .left).target = none) ∧
     (∀ s ∈ [gating, pausing gating], (s.chan .right).state = .gating ∧ (s.port .right).state = .armed ∧
       (s.chan .left).atRest = true) ∧
     gating.seq.pendingPause = none ∧ (pausing gating).seq.pendingPause = some .link ∧
     (pausing s4).seq.pendingPause = some .link ∧ bothAtRest (pausing s4) = true ∧ captureAllowed (pausing s4) = false) := by
  decide +kernel

/-- PANEL_HELD with both channels still, under the hold and with it withdrawn, capture allowed and not: its panel
PENDING; and settled, with no nested fold-out, with one that is CAPTURED, and with one that is PENDING. -/
theorem witness_TheHeldPanel :
    let panel (nested : Option Nat) (p q : TState) (hold : Bool) : State :=
      let s := at1 .scanning .panelHeld
      withSeq (fun q => { onStack q with hold := hold }) { s with col := { s.col with
        foldouts := [some [⟨0, nested, .blank p⟩, ⟨0, none, .blank .pending⟩], some [⟨0, none, .blank q⟩]] ++
          List.replicate 62 none } }
    (∀ s ∈ [panel none .pending .captured true, panel none .pending .captured false, panel none .captured .captured true,
        panel (some 1) .captured .captured false, panel (some 1) .rejected .pending true],
      s.seq.stack = ⟨0, 1, .presentNext⟩ :: [] ∧ s.seq.stackBank = some .right ∧ s.col.volState = .scanning ∧
      s.seq.state = .panelHeld ∧ s.seq.pendingPause = none ∧ s.chans = both .afterReset ∧ captureAllowed s = false ∧
      captureAllowed (lampsGood s) = true ∧ (s.port .right).state = .idle) ∧
    (isPending (panel none .pending .captured true) (.panel 0 1) = true ∧
      1 ≤ (recipeOf (panel none .pending .captured true) (.panel 0 1)).shotCount) ∧
    (∀ q ∈ [TState.captured, .pending], let s := panel (some 1) .rejected q true
      isPending s (.panel 0 1) = false ∧ (((panelsOf s 0).getD [])[0]?).bind (·.nested) = some 1 ∧
      panelsUnder s (coveredFoldouts s 1) = [.panel 1 1] ∧ stateOf s (.panel 1 1) = some q) := by decide +kernel

theorem witness_ThePlatenLeavesTheOpening :
    let s := at1 .scanning .held
    (s.start ≠ .held ∧ s.seq.state = .held ∧ s.col.volState = .scanning ∧ bothAtRest s = true ∧
      s.seq.kind = none) ∧
    ((at1 .paused .held).seq.state = .held ∧ (at1 .paused .held).col.volState = .paused) ∧
    (((chansIn .firing s).chan .left).state = .firing ∧ ((chansIn .firing s).chan .right).state = .firing) ∧
    (at1 .scanning .platenUp).seq.state.isRest = false ∧
    (let one := s.setChan .right { Channel.afterReset with state := .awaiting }
     let gating := (s.setChan .right { Channel.afterReset with state := .gating }).setPort .right
       { Port.afterReset with state := .armed }
     let mixed := gating.setChan .left { Channel.afterReset with state := .firing }
     (bothAtRest one = false ∧ (one.chan .left).state = .idle ∧ (one.chan .right).state = .awaiting) ∧
     (∀ u ∈ [gating, mixed], u.start ≠ .held ∧ u.seq.state = .held ∧ u.col.volState = .scanning ∧ u.seq.kind = none ∧
       (u.chan .right).state = .gating ∧ (u.port .right).state = .armed) ∧
     (gating.chan (Side.right).other).atRest = true ∧ (mixed.chan (Side.right).other).state = .firing) ∧
    (∀ q ∈ [SeqState.handWait, .foldWait, .panelHeld], (at1 .scanning q).start ≠ .held ∧
      (at1 .scanning q).seq.state ≠ .held ∧ (at1 .scanning q).seq.pendingPause = none) := by decide +kernel

theorem witness_MotionsRunOut :
    let last (q : Sequencer) : Sequencer := { q with retries := 2 }
    let s := at1 .scanning .pick
    (up.start ≠ .held ∧ up.seq.state.motion = none ∧ up.seq.manual = none) ∧
    (let s := at1 .scanning .lay
     s.seq.state.motion = some .lay ∧ Motion.lay ≠ .pick ∧ s.seq.double = false ∧ s.col.volState = .scanning ∧
      bothAtRest s = true) ∧
    (s.seq.state = .pick ∧ s.col.volState = .scanning ∧ bothAtRest s = true ∧
      s.seq.retries < s.settings.pickRetries ∧ s.seq.levels.get (farInput (sourceSide s)) = false ∧
      s.seq.levels.vacuumGood = false) ∧
    (let s := withSeq (fun q => { machineTurn q with double := true, edges := 2 }) (at1 .scanning .lay)
     s.seq.state = .lay ∧ s.seq.double = true ∧ s.seq.kind = some .machineTurn ∧ s.seq.turn = some ⟨.forward, 1⟩ ∧
      s.col.volState = .scanning ∧ bothAtRest s = true) ∧
    ((withSeq last s).settings.pickRetries ≤ (withSeq last s).seq.retries ∧ (withSeq last s).seq.state = .pick) ∧
    (∀ m ∈ [ManualMotion.platenUp, .platenDown, .armHome, .liftsDown],
      (withSeq (fun q => { q with manual := some m }) up).seq.manual = some m) := by decide +kernel

/-- 04 section 4.9: bank L's shot, its preview charge and its gate. -/
theorem test_worked_bank :
    let s := { up with settings := { up.settings with calibration := workedBank } }
    let g := gateFigures s .left ⟨[200, 200, 200, 200, 0, 0], 8250, 0, 0, 0, 1, 1⟩
    g.illuminance = 37709 ∧ g.exposure = 8400 ∧ g.dose = 316756 ∧ previewCharge s .left = 18600 := by decide +kernel

/-- Channel R in a state at the recto of leaf 1, its port ARMED, bank R calibrated as 04 section 4.9's bank L, and the
class's limits equal to one dose. -/
def shooting (c : ChanState) (limit : Nat) : State := { at1 .scanning .held with
  settings := { up.settings with
    calibration := List.replicate 6 ⟨0, 0, 255, 0⟩ ++ workedBank.take 6, limits := List.replicate 4 ⟨limit, limit⟩ }
  lamps := { up.lamps with supply := .good }
  chans := { left := .afterReset
             right := { Channel.afterReset with
               state := c, target := some (.side 1 .recto), shot := 1, copy := some shot, timeout := some 1 } }
  ports := { left := .afterReset
             right := { Port.afterReset with
               state := .armed, armed := some (liveHeader .right (.side 1 .recto)) } } }

/-- Channel R's strobe at its last scan, channel 6 at a drive duty of 8 and channel 7 at 7. -/
def strobing : State := let s := shooting .firing 0
  unlocked { s with lamps := { s.lamps with strobe := ⟨none, some ⟨[8, 7, 200, 200, 0, 0], 1⟩⟩ } }

/-- A slot judged at a drive duty of 8, and one not judged at 7. -/
theorem witness_LampLockouts :
    takesDirective up = true ∧ up.start ≠ .held ∧ takesDirective strobing = true ∧ strobing.start ≠ .held ∧
    lampsLaw strobing.lamps ∧ driveDuty strobing 6 = 8 ∧ driveDuty strobing 7 = 7 := by
  refine ⟨by decide +kernel, by decide +kernel, by decide +kernel, by decide +kernel, ?_, by decide +kernel⟩
  unfold lampsLaw; decide +kernel

/-- A rating written 0 and then above 0 within one strobe leaves its channel dark for the strobe's rest (03 R55). -/
theorem test_dark_for_the_rest_of_the_strobe :
    ∃ t u, exec (.writeLampCalibration 1 [8, 0, 0]) strobing = .next t ∧
      exec (.writeLampCalibration 2 [8, 12000, 0]) t = .next u ∧ driveDuty strobing 8 = 200 ∧ channelReady u 8 = true ∧
      driveDuty u 8 = 0 ∧ driveDuty u 9 = 200 := by
  refine ⟨_, _, rfl, rfl, ?_⟩; decide +kernel

/-- A strobe that ends in a passing millisecond leaves the channel its whole frame timeout, 2,000 ms (05 R106). -/
theorem test_timeout_after_a_strobe :
    ∃ t, step { strobing with pins := { strobing.pins with supplyGood := true } } = .next t ∧
      (t.chan .right).state = .awaiting ∧ (t.chan .right).timeout = some 2000 := by
  refine ⟨_, rfl, ?_⟩; decide +kernel

theorem witness_ShotDoseArithmetic :
    let s := shooting .gating 0
    (∀ i, i < 6 → channelReady up (firstChannel .left + i) = false) ∧
    (∀ d ∈ (gateFigures s .right { shot with duties := List.replicate 6 0 }).duties, d = 0) := by decide +kernel

/-- The shot that brings the target to exactly its limit, and one lux millisecond less (04 R81). -/
theorem witness_TheGateFiresOrWithholds :
    let s := shooting .gating 316756
    let u := shooting .gating 316755
    let g := gateFigures s .right shot
    s.start ≠ .held ∧ (up.chan .right).state ≠ .gating ∧ (s.chan .right).state = .gating ∧
    (s.chan .right).target = some (.side 1 .recto) ∧ (s.chan .right).copy = some shot ∧
    fieldsOf s (.side 1 .recto) = some (.blank .pending) ∧
    ¬((doseLimits s).side < 0 + g.dose) ∧ ¬((doseLimits s).volume < s.dose.volDose + g.dose) ∧
    s.lamps.supply = .good ∧ (s.port .right).state = .armed ∧
    (s.port .right).armed = some (liveHeader .right (.side 1 .recto)) ∧
    ((doseLimits u).side < 0 + (gateFigures u .right shot).dose ∧ (u.chan .right).copy = some shot ∧
      fieldsOf u (.side 1 .recto) = some (.blank .pending)) ∧
    (∀ q ∈ [PortState.idle, .receiving], let v := s.setPort .right { s.port .right with
        state := q, armed := if q = .idle then none else (s.port .right).armed }
      v.start ≠ .held ∧ (v.chan .right).state = .gating ∧ (v.chan .right).copy = some shot ∧
      fieldsOf v (.side 1 .recto) = some (.blank .pending) ∧ v.lamps.supply = .good ∧
      ¬((doseLimits v).side < 0 + (gateFigures v .right shot).dose) ∧
      ¬((doseLimits v).volume < v.dose.volDose + (gateFigures v .right shot).dose)) ∧
    (∀ q ∈ [Supply.low, .recovering], ∀ n ∈ [1, 2],
      let v := { s.setChan .right { s.chan .right with takes := n } with lamps := { s.lamps with supply := q } }
      v.start ≠ .held ∧ (v.chan .right).state = .gating ∧ (v.chan .right).copy = some shot ∧ v.lamps.supply ≠ .good ∧
      fieldsOf v (.side 1 .recto) = some (.blank .pending) ∧ (v.chan .right).takes = n ∧ 1 + 1 < shot.takeLimit ∧
      shot.takeLimit ≤ 2 + 1 ∧ ¬((doseLimits v).side < 0 + (gateFigures v .right shot).dose)) := by decide +kernel

/-- A strobe in its last scan; a timeout with a take left, and with none left. -/
theorem witness_ShotsEndOrGoMissing :
    let s := shooting .firing 0
    let lit := { s with lamps := { s.lamps with strobe := ⟨none, some ⟨List.replicate 6 0, 1⟩⟩ } }
    let w := shooting .awaiting 0
    let out := w.setChan .right { w.chan .right with takes := 3 }
    s.start ≠ .held ∧ s.lamps.strobe.get .right = none ∧
    (lit.lamps.strobe.get .right = some ⟨List.replicate 6 0, 1⟩ ∧ (lit.chan .right).state = .firing ∧
      (lit.chan .right).kept = none) ∧
    (s.chan .right).state ≠ .awaiting ∧
    ((w.chan .right).state = .awaiting ∧ (w.chan .right).timeout = some 1 ∧
      (w.chan .right).target = some (.side 1 .recto) ∧ (w.chan .right).copy = some shot ∧
      (w.chan .right).takes < shot.takeLimit) ∧
    ((out.chan .right).state = .awaiting ∧ shot.takeLimit ≤ (out.chan .right).takes) := by decide +kernel

theorem witness_VerdictsAtTheChannel :
    let w := shooting .awaiting 0
    let out := w.setChan .right { w.chan .right with takes := 3 }
    let two (s : State) : State := { s with settings := { s.settings with
      recipes := List.replicate 16 { Recipe.factory with shotCount := 2 } } }
    (w.chan .right).state = .awaiting ∧ (w.chan .right).target = some (.side 1 .recto) ∧
    (w.chan .right).copy = some shot ∧ (up.chan .right).state ≠ .awaiting ∧ (up.chan .right).state ≠ .firing ∧
    ((shooting .firing 0).chan .right).state = .firing ∧ (Verdict.good ≠ .late ∧ Verdict.good ≠ .abandoned) ∧
    (w.chan .right).shot < (recipeOf (two w) (.side 1 .recto)).shotCount ∧
    (recipeOf w (.side 1 .recto)).shotCount ≤ (w.chan .right).shot ∧
    (w.chan .right).takes < shot.takeLimit ∧ shot.takeLimit ≤ (out.chan .right).takes := by decide +kernel

theorem witness_DarkDelayAndVolumeClockRunOut :
    let s := { vol .scanning with tally := { (vol .scanning).tally with clock := 2 ^ 32 - 1, clockRuns := true } }
    s.start ≠ .held ∧ s.tally.clockRuns = true ∧ s.lamps.darkLeft = none := by decide +kernel

theorem witness_TheLampSupply :
    let at' (q : Supply) (ms : Nat) (s : State) : State := { s with lamps := { s.lamps with supply := q, recovery := ms } }
    let s := shooting .firing 0
    let lit := { s with lamps := { s.lamps with strobe := ⟨none, some ⟨List.replicate 6 0, 1⟩⟩ } }
    up.start ≠ .held ∧ up.lamps.supply = .low ∧ (lampsGood up).lamps.supply = .good ∧
    ((at' .recovering 499 up).lamps.supply = .recovering ∧ (at' .recovering 498 up).lamps.recovery < 499) ∧
    ((lampsGood up).lamps.supply ≠ .low ∧ (lampsGood up).lamps.strobe.left = none ∧
      (lampsGood up).lamps.strobe.right = none) ∧
    (lit.lamps.supply ≠ .low ∧ lit.lamps.strobe.get .right = some ⟨List.replicate 6 0, 1⟩ ∧
      lit.lamps.strobe.get (Side.right).other = none ∧ (lit.chan .right).state = .firing ∧
      (lit.chan .right).target = some (.side 1 .recto) ∧ (lit.chan .right).copy = some shot ∧
      (lit.chan .right).takes < shot.takeLimit) ∧
    (let out := lit.setChan .right { lit.chan .right with takes := 3 }
     out.lamps.strobe.get .right = some ⟨List.replicate 6 0, 1⟩ ∧ (out.chan .right).copy = some shot ∧
      shot.takeLimit ≤ (out.chan .right).takes) ∧
    (let two := { lit with
       lamps := { lit.lamps with strobe := both (some ⟨List.replicate 6 0, 1⟩) }
       chans := { left := { lit.chan .right with target := some (.side 0 .verso) }, right := lit.chan .right } }
     ∀ b ∈ [Side.left, .right], two.lamps.strobe.get b ≠ none ∧ (two.chan b).state = .firing ∧
      (two.chan b).target.isSome = true ∧ (two.chan b).copy = some shot ∧ (two.chan b).takes < shot.takeLimit) := by
  decide +kernel

/-- Bank R at PREVIEW over the recto of leaf 1 with bank L cut; both banks over the opening's two sides, with room for
both charges and for the first alone; and both banks dark. -/
theorem witness_TheDoseTick :
    let s := shooting .done 18600
    let lit := { withSeq granted s with lamps := { s.lamps with cut := ⟨true, false⟩ } }
    let isLit (s : State) (b : Side) : Bool := bankLevel s b == .preview && (inView s b).isSome
    (up.start ≠ .held ∧ isLit up .left = false ∧ isLit up .right = false) ∧
    (lit.start ≠ .held ∧ isLit lit .right = true ∧ isLit lit (Side.right).other = false ∧
      inView lit .right = some (.side 1 .recto) ∧ fieldsOf lit (.side 1 .recto) = some (.blank .pending) ∧
      previewCharge lit .right = 18600) ∧
    (∀ limit ∈ [18600, 40000],
      let s := withSeq granted (shooting .done limit)
      let two := { s with settings := { s.settings with calibration := workedBank.take 6 ++ workedBank.take 6 } }
      two.start ≠ .held ∧ isLit two .left = true ∧ isLit two (Side.left).other = true ∧
      inView two .left = some (.side 0 .verso) ∧ inView two .right = some (.side 1 .recto) ∧
      fieldsOf two (.side 0 .verso) = some (.blank .pending) ∧ fieldsOf two (.side 1 .recto) = some (.blank .pending) ∧
      previewCharge two .left = 18600 ∧ (doseLimits two).volume = limit) := by decide +kernel

def receiving (f : Frame) : State :=
  let s := shooting .awaiting 0
  s.setPort .right { s.port .right with state := .receiving, frame := some f }

theorem witness_FrameStarts :
    let s := shooting .firing 0
    let mark : Burst := .header .right 1 .factory (liveHeader .right (.side 1 .recto))
    let jammed := s.setPort .right { s.port .right with queue := List.replicate 3 mark }
    let room := s.setPort .right { s.port .right with queue := List.replicate 2 mark }
    (up.start ≠ .held ∧ (up.port .right).state ≠ .receiving ∧ (up.port .right).armed = none) ∧
    ((s.port .right).state = .armed ∧ (s.port .right).armed = some (liveHeader .right (.side 1 .recto)) ∧
      2 < markersQueued (jammed.port .right) ∧ markersQueued (room.port .right) ≤ 2) ∧
    (let r := (receiving aFrame).port .right
     r.state = .receiving ∧ r.armed = some (liveHeader .right (.side 1 .recto)) ∧ r.frame = some aFrame ∧
      r.waiting = none) ∧
    (∀ n ∈ [1, 2],
      let r := receiving aFrame
      let waits := (chansIn .arming r).setPort .right { r.port .right with
        waiting := some (liveHeader .right (.side 1 .recto)), queue := List.replicate n mark }
      waits.start ≠ .held ∧ (waits.port .right).state = .receiving ∧ (waits.port .right).frame = some aFrame ∧
      (waits.port .right).armed = some (liveHeader .right (.side 1 .recto)) ∧
      (waits.port .right).waiting = some (liveHeader .right (.side 1 .recto)) ∧ (waits.chan .right).state = .arming ∧
      markersQueued (waits.port .right) = n) := by decide +kernel

/-- A line past the height, a 64th line still queued, and the last line that fits. -/
theorem witness_LinesOfAFrame :
    let last : Frame := { aFrame with arrived := 1023 }
    let after : Frame := { aFrame with arrived := 1024 }
    let crowded := (receiving last).setPort .right { (receiving last).port .right with
      queue := List.replicate 64 (.line .right 1 0 []) }
    ((receiving last).start ≠ .held ∧ (up.port .right).frame = none) ∧
    (((receiving after).port .right).frame = some after ∧ after.geometry.height ≤ after.arrived) ∧
    ((crowded.port .right).frame = some last ∧ last.arrived < last.geometry.height ∧
      64 ≤ linesQueued (crowded.port .right)) ∧
    (((receiving last).port .right).frame = some last ∧ linesQueued ((receiving last).port .right) < 64) := by
  decide +kernel

theorem witness_FramesEnd :
    let w := liveHeader .right (.side 1 .recto)
    let r := receiving aFrame
    let waits := (chansIn .arming r).setPort .right { r.port .right with waiting := some w }
    (up.start ≠ .held ∧ (up.port .right).state ≠ .receiving) ∧
    (r.start ≠ .held ∧ (r.port .right).state = .receiving ∧ (r.port .right).armed = some w ∧
      (r.port .right).frame = some aFrame ∧ (r.port .right).waiting = none) ∧
    ((waits.port .right).state = .receiving ∧ (waits.port .right).armed = some w ∧
      (waits.port .right).frame = some aFrame ∧ (waits.port .right).waiting = some w ∧
      (waits.chan .right).state = .arming) := by decide +kernel

/-- Every timer with one millisecond more to run than it takes, while the supply is LOW and while it recovers; the
volume clock at the end of its last second; and a pin that changed since the last sample. -/
theorem witness_StepWithoutCommand :
    let tight : State := withSeq (fun q => { q with state := .lay, motionLeft := 2, manual := some .liftsDown, manualLeft := 2 })
      { receiving { aFrame with stallLeft := 2 } with
        lamps := { up.lamps with strobe := ⟨none, some ⟨List.replicate 6 0, 3⟩⟩, scanSlot := both 5, darkLeft := some 1 }
        dose := { up.dose with tickMs := 98 }
        tally := { up.tally with clock := 2 ^ 32 - 1, clockRuns := true, clockMs := 999 } }
    let calm := tight.setChan .right { tight.chan .right with timeout := some 2 }
    let mending : State := { calm with
      pins := { calm.pins with supplyGood := true }
      lamps := { calm.lamps with supply := .recovering, recovery := 498 } }
    let pressed : State := { up with pins := { up.pins with inputs := up.pins.inputs.set .pedal true } }
    (up.pending = [] ∧ (held up).start = .held) ∧
    (∀ s ∈ [calm, mending], s.pending = [] ∧ s.start ≠ .held ∧
      (∀ i ∈ allInputs, s.seq.readings.get i = reading (polarityOf s i) (s.pins.inputs.get i) ∧
        s.seq.levels.get i = reading (polarityOf s i) (s.pins.inputs.get i)) ∧
      2 ≤ s.seq.motionLeft ∧ 2 ≤ s.seq.manualLeft ∧ (s.chan .left).state ≠ .gating ∧ (s.chan .right).state ≠ .gating ∧
      (s.chan .left).timeout = none ∧ (s.chan .right).timeout = some 2 ∧ (s.port .left).frame = none ∧
      (s.port .right).frame.map (·.stallLeft) = some 2 ∧ s.lamps.strobe = ⟨none, some ⟨List.replicate 6 0, 3⟩⟩ ∧
      (s.lamps.scanSlot.right + 10) / 6 < 3 ∧ s.dose.tickMs < 99) ∧
    (calm.pins.supplyGood = false ∧ calm.lamps.supply = .low) ∧
    (mending.pins.supplyGood = true ∧ mending.lamps.supply = .recovering ∧ mending.lamps.recovery < 499) ∧
    (pressed.pending = [] ∧ pressed.start ≠ .held ∧ pressed.col.volState ≠ .scanning ∧ pressed.seq.state.motion = none ∧
      pressed.seq.manual = none ∧ pressed.chans = both .afterReset ∧ pressed.ports = both .afterReset ∧
      pressed.lamps.strobe = both none ∧
      reading (polarityOf pressed .pedal) (pressed.pins.inputs.get .pedal) ≠ pressed.seq.readings.get .pedal) := by
  decide +kernel

/-! For each invariant a state that keeps it and a step from it: the READY volume with PAUSE at the front. -/

def waiting : State := { vol .ready with pending := [.pause 1 []] }

theorem waiting_steps : ∃ t, step waiting = .next t := ⟨_, rfl⟩

theorem witness_EveryStepKeepsTheLockTheNoticesAndTheSettings :
    (∃ t, step waiting = .next t) ∧ lockLaw waiting ∧ lampsLaw waiting.lamps ∧ noticesLaw waiting ∧ settingsLaw waiting := by
  refine ⟨waiting_steps, by unfold lockLaw; decide, by unfold lampsLaw; decide, ⟨rfl, ?_⟩, factory_law, factory_law⟩
  intro q h; rw [List.eq_of_mem_replicate h]; exact ⟨by decide, fun _ => rfl⟩

theorem witness_EveryStepKeepsTheLinkAndThePorts :
    (∃ t, step waiting = .next t) ∧ linkLaw waiting.link ∧ quietLaw waiting ∧ idleLaw waiting ∧ portsLaw waiting := by
  have n (i : Nat) (h : i < 16) : eligible waiting i = false := by revert i; decide +kernel
  have p : Port.afterReset.law := ⟨⟨rfl, rfl, rfl⟩, by decide, by decide, by decide, by decide, by decide⟩
  exact ⟨waiting_steps, by unfold linkLaw; decide, by unfold quietLaw; decide +kernel,
    fun _ _ => ⟨rfl, n, fun b => by cases b <;> rfl⟩, p, p⟩

theorem witness_EveryStepKeepsTheCounters :
    (∃ t, step waiting = .next t) ∧ countersLaw waiting ∧ tallyReadable waiting = true := by
  refine ⟨waiting_steps, ?_, by decide⟩; unfold countersLaw; decide +kernel

theorem witness_EveryStepKeepsTheRetakeList : (∃ t, step waiting = .next t) ∧ retakesLaw waiting := by
  refine ⟨waiting_steps, ?_⟩; unfold retakesLaw; decide +kernel

theorem witness_EveryStepKeepsTheDoseAccount : (∃ t, step waiting = .next t) ∧ accountLaw waiting := by
  refine ⟨waiting_steps, ?_⟩; unfold accountLaw; decide +kernel

theorem doses_zero (x : Target) : doseOf waiting x ≤ 0 := by
  cases x with
  | side i f =>
    match i, f with
    | 0, .recto | 0, .verso | 1, .recto | 1, .verso => decide
    | i + 2, f => cases f <;> exact Nat.le_refl 0
  | panel f n =>
    match f, n with
    | 0, 0 | 0, 1 | 0, 2 => decide
    | 0, n + 3 => exact Nat.le_refl 0
    | f + 1, n =>
      have h : panelsOf waiting (f + 1) = none := by
        show ((List.replicate 63 none)[f]?).join = none
        rw [List.getElem?_replicate]; split <;> rfl
      simp [doseOf, fieldsOf, h]

theorem witness_EveryStepKeepsTheDoseLimits :
    (∃ t, step waiting = .next t) ∧ limitsLaw waiting ∧ quietLaw waiting := by
  refine ⟨waiting_steps, ⟨fun _ => ⟨by decide +kernel, doses_zero⟩, by decide +kernel⟩, ?_⟩
  unfold quietLaw; decide +kernel

theorem witness_DecodeReadsEveryDirectiveBack :
    wellFormed (.pause 1 (List.replicate 511 0)) = true ∧ wellFormed (.unknown 1 0xFFFFFFFF) = true ∧
    (encodeFrame (.pause 1 [])).isSome = true ∧ (up.link.up = true ∧ up.link.incoming = []) ∧
    (linkDown up).link.up = false := by decide +kernel

end Sys2Proof.Tests
end

section
/-! PROOFS of the family 04 (light dose). The arithmetic of a shot's dose: whole scans, one rounding up, and no dose from
a bank that is dark. -/

namespace Sys2Proof.Machine

/-! ### The effective exposure (04 R75) -/

theorem effectiveExposure_mod (t : Nat) : effectiveExposure t % 600 = 0 := Nat.mul_mod_left _ _

theorem le_effectiveExposure (t : Nat) : t ≤ effectiveExposure t := by
  unfold effectiveExposure; omega

theorem effectiveExposure_lt (t : Nat) : effectiveExposure t < t + 600 := by
  unfold effectiveExposure; omega

/-! ### The shot dose (04 R76) -/

theorem le_shotDose (e t : Nat) : e * t ≤ 1000 * shotDose e t := by
  unfold shotDose; omega

theorem shotDose_lt (e t : Nat) : 1000 * shotDose e t < e * t + 1000 := by
  unfold shotDose; omega

theorem shotDose_mono {e e' t t' : Nat} (he : e ≤ e') (ht : t ≤ t') : shotDose e t ≤ shotDose e' t' :=
  Nat.div_le_div_right (Nat.add_le_add_right (Nat.mul_le_mul he ht) 999)

@[simp] theorem shotDose_zero (t : Nat) : shotDose 0 t = 0 := by simp [shotDose]

/-- The largest shot dose: every channel at its full contribution for 84 scans. -/
theorem shotDose_largest : shotDose 491124 50400 = 24752650 := by decide

/-! ### A dark bank (04 R73, R74) -/

@[simp] theorem contribution_zero (c : Calibration) : contribution c 0 = 0 := by simp [contribution]

/-- A duty beyond the list's end counts as 0, so the list's own entries decide. -/
theorem getD_eq_zero_of_forall_mem {l : List Nat} (h : ∀ d ∈ l, d = 0) (i : Nat) : l.getD i 0 = 0 := by
  rw [List.getD_eq_getElem?_getD]
  cases e : l[i]? with
  | none => rfl
  | some d => exact h d (List.mem_of_getElem? e)

theorem illuminance_eq_zero_of_duties (s : State) (b : Side) {duties : List Nat} (h : ∀ d ∈ duties, d = 0) :
    illuminance s b duties = 0 := by
  unfold illuminance
  refine List.sum_eq_zero fun e he => ?_
  obtain ⟨i, -, rfl⟩ := List.mem_map.mp he
  rw [getD_eq_zero_of_forall_mem h, contribution_zero]

theorem strobeDuties_eq_zero_of_dark {s : State} {b : Side} (duties : List Nat)
    (h : ∀ i, i < 6 → channelReady s (firstChannel b + i) = false) : ∀ d ∈ strobeDuties s b duties, d = 0 := by
  intro d hd
  obtain ⟨i, hi, rfl⟩ := List.mem_map.mp hd
  simp [h i (List.mem_range.mp hi)]

/-! ### The gate figures and the strobe they start (04 R81, 03 R60) -/

/-- A shot whose strobe duties are all 0 gives no light and charges nothing. -/
theorem gateFigures_dark {s : State} {b : Side} {c : ShotCopy} (h : ∀ d ∈ (gateFigures s b c).duties, d = 0) :
    (gateFigures s b c).illuminance = 0 ∧ (gateFigures s b c).dose = 0 := by
  have hE : (gateFigures s b c).illuminance = 0 := illuminance_eq_zero_of_duties s b h
  have hD : (gateFigures s b c).dose = shotDose (gateFigures s b c).illuminance (gateFigures s b c).exposure := rfl
  exact ⟨hE, by rw [hD, hE, shotDose_zero]⟩

@[simp] theorem startStrobe_strobe_get (b : Side) (g : GateFigures) (s : State) :
    (startStrobe b g s).lamps.strobe.get b = some ⟨g.duties, g.exposure / 600⟩ := by
  simp [startStrobe]

/-- Settles O44, from the bounds of the two roundings, the monotony of the dose and the dark bank. -/
theorem shotDoseArithmetic : Obligations.ShotDoseArithmetic := by
  refine ⟨fun t => ⟨effectiveExposure_mod t, le_effectiveExposure t, effectiveExposure_lt t⟩,
    fun e t => ⟨le_shotDose e t, shotDose_lt e t⟩, shotDose_largest,
    fun e t he ht => shotDose_largest ▸ shotDose_mono he ht, fun s b c => ⟨rfl, rfl, ?_, startStrobe_strobe_get b _ s⟩⟩
  rintro (hduties | hdark)
  · exact gateFigures_dark hduties
  · exact gateFigures_dark (strobeDuties_eq_zero_of_dark c.duties hdark)

end Sys2Proof.Machine
end

section
/-! PROOFS of the family 09 (notices). What a raise and a clear do to the source they name and to the others. -/

namespace Sys2Proof.Machine

/-! ### A raise of one source (09 R170) -/

theorem SourceState.raise_of_flag_clear {q : SourceState} (h : q.flag = false) (detail : List Slot) (stamp : Option Nat) :
    q.raise detail stamp = ⟨true, false, 0, detail, stamp⟩ := by simp [SourceState.raise, h]

theorem SourceState.raise_of_flag_set {q : SourceState} (h : q.flag = true) (detail : List Slot) (stamp : Option Nat) :
    q.raise detail stamp = { q with repeats := countUp 255 q.repeats } := by simp [SourceState.raise, h]

/-! ### The sources after a raise and after a clear (09 R170, R172) -/

theorem raise_source_ne {src : Source} {i : Nat} (h : i ≠ src.num) (detail : List Slot) (s : State) :
    (raise src detail s).notices.sources[i]? = s.notices.sources[i]? :=
  List.getElem?_modify_ne _ _ h.symm

theorem raise_source {src : Source} {s : State} {q : SourceState} (hq : s.notices.sources[src.num]? = some q)
    (detail : List Slot) :
    (raise src detail s).notices.sources[src.num]? = some (q.raise detail (noticeStamp s)) := by
  simp [hq]

theorem raise_source_of_flag_clear {src : Source} {s : State} {q : SourceState}
    (hq : s.notices.sources[src.num]? = some q) (hflag : q.flag = false) (detail : List Slot) :
    (raise src detail s).notices.sources[src.num]? = some ⟨true, false, 0, detail, noticeStamp s⟩ := by
  rw [raise_source hq, SourceState.raise_of_flag_clear hflag]

theorem raise_source_of_flag_set {src : Source} {s : State} {q : SourceState}
    (hq : s.notices.sources[src.num]? = some q) (hflag : q.flag = true) (detail : List Slot) :
    (raise src detail s).notices.sources[src.num]? = some { q with repeats := countUp 255 q.repeats } := by
  rw [raise_source hq, SourceState.raise_of_flag_set hflag]

theorem clearSources_source_of_named {named : Slot} {s : State} {q : SourceState} {i : Nat}
    (hnamed : named.getLsbD i = true) (hq : s.notices.sources[i]? = some q) :
    (clearSources named s).notices.sources[i]? = some .clear := by
  simp [clearSources, hq, hnamed]

/-- A clear changes neither the volume's state nor its clock, so a later raise takes the same stamp. -/
theorem noticeStamp_clearSources (named : Slot) (s : State) : noticeStamp (clearSources named s) = noticeStamp s := rfl

/-! ### Raises and clears together -/

/-- Of two raises together the first gives detail and stamp, and the second is its first repeat. -/
theorem raise_raise_source {src : Source} {s : State} {q : SourceState} (hq : s.notices.sources[src.num]? = some q)
    (hflag : q.flag = false) (detail other : List Slot) :
    (raise src other (raise src detail s)).notices.sources[src.num]? = some ⟨true, false, 1, detail, noticeStamp s⟩ :=
  raise_source_of_flag_set (raise_source_of_flag_clear hq hflag detail) rfl other

theorem clearSources_raise_source {src : Source} {named : Slot} {s : State} {q : SourceState}
    (hnamed : named.getLsbD src.num = true) (hq : s.notices.sources[src.num]? = some q) (detail : List Slot) :
    (clearSources named (raise src detail s)).notices.sources[src.num]? = some .clear :=
  clearSources_source_of_named hnamed (raise_source hq detail)

theorem raise_clearSources_source {src : Source} {named : Slot} {s : State} {q : SourceState}
    (hnamed : named.getLsbD src.num = true) (hq : s.notices.sources[src.num]? = some q) (detail : List Slot) :
    (raise src detail (clearSources named s)).notices.sources[src.num]? =
      some ⟨true, false, 0, detail, noticeStamp s⟩ := by
  rw [← noticeStamp_clearSources named s]
  exact raise_source_of_flag_clear (clearSources_source_of_named hnamed hq) rfl detail

/-- Settles O31, from what a raise does to a clear source, to a set one and to the others, and what a clear leaves. -/
theorem raisingANotice : Obligations.RaisingANotice := by
  intro src detail other s q hq
  exact ⟨rfl, fun _ hne => raise_source_ne hne detail s,
    fun hclear => ⟨raise_source_of_flag_clear hq hclear detail, raise_raise_source hq hclear detail other⟩,
    fun hset => raise_source_of_flag_set hq hset detail,
    fun _ hnamed => ⟨clearSources_raise_source hnamed hq detail, raise_clearSources_source hnamed hq detail⟩, rfl⟩

end Sys2Proof.Machine
end

section
/-! PROOFS of the family of invariants. What one step can do, and the laws of the link, the transmitter and the ports. -/

namespace Sys2Proof.Machine

/-! ### One step -/

/-- The state on which a step runs: the front command, if any, is off the queue. -/
def unqueued (s : State) : State := { s with pending := s.pending.tail }

/-- A step is a command on the rest of the queue, or one millisecond. -/
theorem step_cases {s t : State} (h : step s = .next t) : (∃ c, exec c (unqueued s) = .next t) ∨ t = tick (unqueued s) := by
  unfold step at h
  split at h
  · next c rest hp => exact .inl ⟨c, by rw [unqueued, hp]; exact h⟩
  · next hp =>
    have hs : unqueued s = s := by rw [unqueued, hp, List.tail_nil, ← hp]
    cases h
    exact .inr (by rw [hs])

theorem step_does {s t : State} (h : step s = .next t) : Does True (unqueued s) t := by
  rcases step_cases h with ⟨c, hc⟩ | rfl
  · exact exec_does hc
  · exact tick_does .refl trivial

/-! ### What the changes of Moves.lean leave alone -/

theorem settled_rest (x : Target) (a : TState) (t : State) :
    dropRetake x (changeState x .pending a t) = { t with
      col := (changeState x .pending a t).col
      tally := (dropRetake x (changeState x .pending a t)).tally } := by
  rw [dropRetake_rest, changeState_rest]

theorem retakeSide_rest (i : Nat) (f : Face) (t : State) :
    retakeSide i f t = { t with col := (unsettle (.side i f) t).col, tally := (retakeSide i f t).tally } := by
  unfold retakeSide
  rw [unsettle_rest]

/-! ### The link (08 R156, R159) -/

theorem Does.linkLaw {L : Prop} {s t : State} (h : Does L s t) (k : linkLaw s.link) : linkLaw t.link := by
  induction h with
  | refl => exact k
  | settled _ x a _ _ ih => rw [settled_rest]; exact ih
  | unsettled _ x b _ _ ih => rw [changeState_rest]; exact ih
  | retaken _ i f b _ _ _ _ ih => rw [retakeSide_rest]; exact ih
  | fields _ x g _ ih => rw [modifyFields_rest]; exact ih
  | charged _ x n _ ih => rw [charge_rest]; exact ih
  | link _ _ l ok _ ih => exact ok ih
  | reset _ _ c _ => exact ⟨Nat.zero_le _, Nat.zero_le _, Nat.zero_le _⟩
  | released _ held ih => rw [releaseReset, if_pos held]; exact ih
  | _ => assumption

/-! ### The ports (06 R115, R116, R122) -/

theorem Port.law_afterReset : Port.afterReset.law := by
  simp [Port.afterReset, Port.law, Port.shape, linesQueued, markersQueued]

theorem Does.portsLaw {L : Prop} {s t : State} (h : Does L s t) (k : portsLaw s) : portsLaw t := by
  induction h with
  | refl => exact k
  | port _ b p ok ih =>
    cases b with
    | left => exact ⟨ok ih.1, ih.2⟩
    | right => exact ⟨ih.1, ok ih.2⟩
  | settled _ x a _ _ ih => rw [settled_rest]; exact ih
  | unsettled _ x b _ _ ih => rw [changeState_rest]; exact ih
  | retaken _ i f b _ _ _ _ ih => rw [retakeSide_rest]; exact ih
  | fields _ x g _ ih => rw [modifyFields_rest]; exact ih
  | charged _ x n _ ih => rw [charge_rest]; exact ih
  | reset _ _ c _ => exact ⟨Port.law_afterReset, Port.law_afterReset⟩
  | released _ held ih => rw [releaseReset, if_pos held]; exact ih
  | _ => assumption

/-! ### The transmitter (08 R166) -/

/-- With the link DOWN nothing is asked of the transmitter. -/
theorem idleLaw_down {s : State} (h : s.link.up = false) : idleLaw s := fun hup => by simp [h] at hup

/-- The transmitter's law rests on the link, the notices, the enables and the burst queues. -/
theorem idleLaw_congr {s t : State} (up : t.link.up = s.link.up) (sending : t.link.sending = s.link.sending)
    (replies : t.link.replies = s.link.replies) (notices : t.notices = s.notices) (settings : t.settings = s.settings)
    (ports : t.ports = s.ports) (h : idleLaw s) : idleLaw t := by
  intro hu hn
  obtain ⟨hr, he, hp⟩ := h (up ▸ hu) (sending ▸ hn)
  exact ⟨replies ▸ hr, fun i hi => by rw [← he i hi]; simp [eligible, notices, settings],
    fun b => by rw [← hp b]; simp [State.port, ports]⟩

/-- Either arm of a test. -/
theorem ite_idleLaw {p : Prop} [Decidable p] {a b : State} (ha : idleLaw a) (hb : idleLaw b) :
    idleLaw (if p then a else b) := by
  split
  · exact ha
  · exact hb

theorem event_idleLaw {s : State} (f : State → State) (h : idleLaw s) : idleLaw (event s f) := by
  unfold event unlessHeld
  split
  · exact h
  · exact idleBoundary_idleLaw _

theorem directive_idleLaw {s : State} (tag : Byte) (code : Slot) (rule : State → Answer) (h : idleLaw s) :
    idleLaw (directive tag code rule s) := by
  rcases directive_cases tag code rule s with ⟨e, -⟩ | e | e <;> rw [e]
  · exact idleBoundary_idleLaw _
  · exact idleLaw_congr rfl rfl rfl rfl rfl rfl h
  · exact h

theorem beginReset_idleLaw {s : State} (c : ResetCause) (h : idleLaw s) : idleLaw (beginReset c s) := by
  unfold beginReset
  split
  · split
    · exact idleLaw_congr rfl rfl rfl rfl rfl rfl h
    · exact h
  · exact idleLaw_down rfl

theorem frameBoundary_idleLaw {s : State} (h : idleLaw s) : idleLaw (frameBoundary s) := by
  unfold frameBoundary
  split
  · exact beginReset_idleLaw _ h
  · split
    · exact fun _ => takeNext_idle
    · next hup => exact idleLaw_down (s := send none s) (Bool.eq_false_iff.mpr hup)

theorem loseLock_idleLaw {s : State} : idleLaw (loseLock s) := by
  have paused : (requestPause .link (raise .linkFault [1, 0]
      { s with link := { s.link with lock := false, up := false, incoming := [] } })).link.up = false := by
    rw [(requestPause_does (L := False) .refl .link).link_eq]; rfl
  unfold loseLock
  dsimp only
  split
  · split
    · exact beginReset_idleLaw _ (idleLaw_down paused)
    · exact idleLaw_down paused
  · exact idleLaw_down rfl

theorem gainLock_idleLaw {s : State} (h : idleLaw s) : idleLaw (gainLock s) := by
  have kept : idleLaw { s with link := { s.link with lock := true } } := idleLaw_congr rfl rfl rfl rfl rfl rfl h
  unfold gainLock
  dsimp only
  split
  · exact kept
  · exact kept
  · exact idleBoundary_idleLaw _
  · split
    · exact kept
    · exact idleBoundary_idleLaw _

/-- During the start-up recall the link is DOWN, and stays so until a lock is reported. -/
theorem endStartupRecall_idleLaw {s : State} (q : quietLaw s) (h : idleLaw s) : idleLaw (endStartupRecall s) := by
  obtain ⟨-, up, -⟩ := q
  unfold endStartupRecall
  split
  · next hr =>
    have down : s.link.up = false := by
      cases e : s.link.up with
      | false => rfl
      | true => simp [up e] at hr
    refine ite_idleLaw (idleBoundary_idleLaw _) (idleLaw_down down)
  · exact h

theorem endStore_idleLaw {s : State} (ok : Bool) (h : idleLaw s) : idleLaw (endStore ok s) := by
  unfold endStore
  split
  · exact idleBoundary_idleLaw _
  · exact h

theorem endRecall_idleLaw {s : State} (h : idleLaw s) : idleLaw (endRecall s) := by
  unfold endRecall
  split
  · exact idleBoundary_idleLaw _
  · exact h

theorem darkExpiry_idleLaw {s : State} (h : idleLaw s) : idleLaw (unlessHeld s darkExpiry) := by
  unfold unlessHeld darkExpiry
  split
  · exact h
  · split
    · exact idleLaw_congr rfl rfl rfl rfl rfl rfl h
    · exact h

theorem clockSecond_idleLaw {s : State} (h : idleLaw s) : idleLaw (unlessHeld s clockSecond) := by
  unfold unlessHeld clockSecond
  split
  · exact h
  · split
    · exact idleLaw_congr rfl rfl rfl rfl rfl rfl h
    · exact h

theorem takeBadFrame_idleLaw {s : State} (k : Byte) (h : idleLaw s) : idleLaw (takeBadFrame k s) := by
  unfold takeBadFrame
  split
  · exact idleBoundary_idleLaw _
  · exact h

theorem discardDirective_idleLaw {s : State} (h : idleLaw s) : idleLaw (discardDirective s) := by
  unfold discardDirective
  split
  · exact idleLaw_congr rfl rfl rfl rfl rfl rfl h
  · exact h

theorem makeLinkReset_idleLaw {s : State} (h : idleLaw s) : idleLaw (makeLinkReset s) := by
  unfold makeLinkReset
  split
  · exact beginReset_idleLaw _ h
  · exact h

theorem releaseReset_idleLaw {s : State} (h : idleLaw s) : idleLaw (releaseReset s) := by
  unfold releaseReset
  split
  · exact idleLaw_congr rfl rfl rfl rfl rfl rfl h
  · exact h

/-- A command keeps the transmitter's law: it ends with the boundary, or leaves the offers alone, or the link is DOWN. -/
theorem exec_idleLaw {c : Instr} {s t : State} (e : exec c s = .next t) (q : quietLaw s) (h : idleLaw s) : idleLaw t := by
  cases c <;> cases e
  case badFrame => exact takeBadFrame_idleLaw _ h
  case directiveDiscard => exact discardDirective_idleLaw h
  case directiveDroppedBeforeReset => exact h
  case linkDown => exact loseLock_idleLaw
  case linkUp => exact gainLock_idleLaw h
  case upstreamFrameSent => exact frameBoundary_idleLaw h
  case linkReset => exact makeLinkReset_idleLaw h
  case powerOn | resetLine | coreSupply => exact beginReset_idleLaw _ h
  case resetReleased => exact releaseReset_idleLaw h
  case startupRecallDone => exact endStartupRecall_idleLaw q h
  case storeDone => exact endStore_idleLaw _ h
  case recallDone => exact endRecall_idleLaw h
  case supplyLoss | supplyGoodSample | supplyRecovered =>
    exact event_idleLaw _ (idleLaw_congr rfl rfl rfl rfl rfl rfl h)
  case darkDelayExpiry => exact darkExpiry_idleLaw h
  case volumeClockSecond => exact clockSecond_idleLaw h
  case homeArrival | apexArrival | farPositionArrival | vacuumGoodArrival | vacuumGoodRelease | platenDownArrival
    | platenDownRelease | platenUpArrival | contactArrival | leafEdge | pedalPress | motionExpiry | manualMotionExpiry
    | gateRequest | strobeEnd | frameTimeout | channelLockout | doseTick | frameStart | line | frameEnd | stall =>
    exact event_idleLaw _ h
  all_goals exact directive_idleLaw _ _ _ h

theorem step_idleLaw {s t : State} (e : step s = .next t) (q : quietLaw s) (h : idleLaw s) : idleLaw t := by
  have h' : idleLaw (unqueued s) := idleLaw_congr rfl rfl rfl rfl rfl rfl h
  rcases step_cases e with ⟨c, hc⟩ | rfl
  · exact exec_idleLaw hc q h'
  · exact event_idleLaw _ h'

/-- Settles O54: the link's and the ports' laws are kept by every change of Moves.lean, and the transmitter's by every
command. -/
theorem everyStepKeepsTheLinkAndThePorts : Obligations.EveryStepKeepsTheLinkAndThePorts := by
  intro s t e
  exact ⟨fun k => (step_does e).linkLaw k, step_idleLaw e, fun k => (step_does e).portsLaw k⟩

end Sys2Proof.Machine
end

section
/-! PROOFS of the family of invariants. The laws of the lock, the notices, the settings and the lamps. -/

namespace Sys2Proof.Machine

/-! ### The conservation lock (04 R70, R88) -/

/-- A charge leaves the lock and its mismatch count. -/
theorem charge_dose (x : Target) (n : Nat) (t : State) :
    (charge x n t).dose = { t.dose with volDose := (charge x n t).dose.volDose } := by
  unfold charge
  split
  · rw [modifyFields_rest]
  · rfl

theorem Does.lockLaw {L : Prop} {s t : State} (h : Does L s t) (k : lockLaw s) : lockLaw t := by
  induction h with
  | refl => exact k
  | settled _ x a _ _ ih => rw [settled_rest]; exact ih
  | unsettled _ x b _ _ ih => rw [changeState_rest]; exact ih
  | retaken _ i f b _ _ _ _ ih => rw [retakeSide_rest]; exact ih
  | fields _ x g _ ih => rw [modifyFields_rest]; exact ih
  | charged _ x n _ ih => unfold Machine.lockLaw; rw [charge_dose]; exact ih
  | lock _ d _ ok ih => exact ok ih
  | opened _ v _ _ _ ih => exact ⟨ih.1, nofun⟩
  | reset _ _ c _ => exact ⟨Nat.zero_le _, nofun⟩
  | released _ held ih => rw [releaseReset, if_pos held]; exact ih
  | _ => assumption

/-! ### The notices (09 R169, R170) -/

theorem SourceState.law_clear : SourceState.clear.law := ⟨Nat.zero_le _, fun _ => rfl⟩

theorem SourceState.law_raise {q : SourceState} (h : q.law) (d : List Slot) (n : Option Nat) : (q.raise d n).law := by
  unfold SourceState.raise
  split
  · next hf => exact ⟨countUp_le h.1, fun e => by simp [hf] at e⟩
  · exact ⟨Nat.zero_le _, nofun⟩

/-- What holds of every entry, and after the change of the one entry changed, holds of every entry after it. -/
theorem forall_mem_modify {α : Type} {l : List α} {i : Nat} {g : α → α} {p : α → Prop}
    (hg : ∀ x, l[i]? = some x → p x → p (g x)) (h : ∀ x ∈ l, p x) : ∀ y ∈ l.modify i g, p y := by
  intro y hy
  obtain ⟨j, hj⟩ := List.mem_iff_getElem?.mp hy
  rw [List.getElem?_modify] at hj
  obtain ⟨x, hx, rfl⟩ : ∃ x, l[j]? = some x ∧ (if i = j then g x else x) = y := by
    split at hj
    · next e => simpa only [if_pos e] using Option.map_eq_some_iff.mp hj
    · next e => simpa only [if_neg e] using Option.map_eq_some_iff.mp hj
  have px := h x (List.mem_of_getElem? hx)
  split
  · next e => exact hg x (e ▸ hx) px
  · exact px

/-- A source marked as sent was eligible, so its flag is set. -/
theorem SourceState.law_markSent {t : State} {i : Nat} {q : SourceState} (e : eligible t i = true)
    (hq : t.notices.sources[i]? = some q) (h : q.law) : { q with sent := true }.law := by
  have flag : q.flag = true := by
    simp only [eligible, List.getD_eq_getElem?_getD, hq, Option.getD_some, Bool.and_eq_true] at e
    exact e.1.1.2
  exact ⟨h.1, fun f => by simp [flag] at f⟩

theorem Does.noticesLaw {L : Prop} {s t : State} (h : Does L s t) (k : noticesLaw s) : noticesLaw t := by
  induction h with
  | refl => exact k
  | raised _ src d ih =>
    exact ⟨by simp [ih.1], forall_mem_modify (fun _ _ hq => SourceState.law_raise hq d _) ih.2⟩
  | marked _ i e ih =>
    exact ⟨by simp [markSent, ih.1], forall_mem_modify (fun _ hx hq => SourceState.law_markSent e hx hq) ih.2⟩
  | cleared _ w ih =>
    refine ⟨by simp [clearSources, ih.1], fun q hq => ?_⟩
    obtain ⟨i, hi, rfl⟩ := List.mem_mapIdx.mp hq
    split
    · exact SourceState.law_clear
    · exact ih.2 _ (List.getElem_mem hi)
  | settled _ x a _ _ ih => rw [settled_rest]; exact ih
  | unsettled _ x b _ _ ih => rw [changeState_rest]; exact ih
  | retaken _ i f b _ _ _ _ ih => rw [retakeSide_rest]; exact ih
  | fields _ x g _ ih => rw [modifyFields_rest]; exact ih
  | charged _ x n _ ih => rw [charge_rest]; exact ih
  | reset _ _ c _ => exact ⟨List.length_replicate, fun q hq => List.eq_of_mem_replicate hq ▸ SourceState.law_clear⟩
  | released _ held ih => rw [releaseReset, if_pos held]; exact ih
  | _ => assumption

/-! ### The settings and their image (10 R175) -/

theorem Geometry.law_factory : Geometry.factory.law := by unfold Geometry.law; decide

theorem Recipe.law_factory : Recipe.factory.law := by unfold Recipe.law Shot.law; decide

theorem Settings.law_factory : Settings.factory.law := by
  have replicated {α : Type} (p : α → Prop) {x : α} (n : Nat) (h : p x) : ∀ y ∈ List.replicate n x, p y :=
    fun y hy => List.eq_of_mem_replicate hy ▸ h
  refine ⟨⟨rfl, replicated _ 12 ?_⟩, ⟨rfl, replicated _ 4 ?_⟩, ⟨rfl, replicated _ 16 Recipe.law_factory⟩, ⟨rfl, ?_⟩,
    rfl, ⟨Geometry.law_factory, Geometry.law_factory⟩, ?_, rfl, rfl, rfl⟩
  · unfold Calibration.law; decide
  · unfold DoseLimit.law; decide
  · decide
  · decide

theorem Does.settingsLaw {L : Prop} {s t : State} (h : Does L s t) (k : settingsLaw s) : settingsLaw t := by
  induction h with
  | refl => exact k
  | settings _ q ok _ ih => exact ⟨ok ih.1, ih.2⟩
  | recalled _ _ ih => exact ⟨ih.2, ih.2⟩
  | store _ q img _ ih => exact ⟨ih.1, img ih⟩
  | startup _ _ q ok ih =>
    refine ⟨?_, ih.2⟩
    rcases ok with rfl | rfl
    · exact ih.2
    · exact Settings.law_factory
  | settled _ x a _ _ ih => rw [settled_rest]; exact ih
  | unsettled _ x b _ _ ih => rw [changeState_rest]; exact ih
  | retaken _ i f b _ _ _ _ ih => rw [retakeSide_rest]; exact ih
  | fields _ x g _ ih => rw [modifyFields_rest]; exact ih
  | charged _ x n _ ih => rw [charge_rest]; exact ih
  | reset _ _ c ih => exact ⟨Settings.law_factory, ih.2⟩
  | released _ held ih => rw [releaseReset, if_pos held]; exact ih
  | _ => assumption

/-! ### The lamps (03 R54, R56) -/

theorem Does.lampsLaw {L : Prop} {s t : State} (h : Does L s t) (k : lampsLaw s.lamps) : lampsLaw t.lamps := by
  induction h with
  | refl => exact k
  | lamps _ l ok ih => exact ok ih
  | settled _ x a _ _ ih => rw [settled_rest]; exact ih
  | unsettled _ x b _ _ ih => rw [changeState_rest]; exact ih
  | retaken _ i f b _ _ _ _ ih => rw [retakeSide_rest]; exact ih
  | fields _ x g _ ih => rw [modifyFields_rest]; exact ih
  | charged _ x n _ ih => rw [charge_rest]; exact ih
  | reset _ _ c _ => exact ⟨List.length_replicate, Nat.zero_lt_succ _, Nat.zero_lt_succ _⟩
  | released _ held ih => rw [releaseReset, if_pos held]; exact ih
  | _ => assumption

/-- Settles O55: each of the four laws is kept by every change of Moves.lean. -/
theorem everyStepKeepsTheLockTheNoticesAndTheSettings :
    Obligations.EveryStepKeepsTheLockTheNoticesAndTheSettings := by
  intro s t e
  have h := step_does e
  exact ⟨fun k => h.lockLaw k, fun k => h.noticesLaw k, fun k => h.settingsLaw k, fun k => h.lampsLaw k⟩

end Sys2Proof.Machine
end

section
/-! PROOFS of the family of invariants. The tally: its counters and its retake list. -/

namespace Sys2Proof.Machine

/-! ### What a law of the tally reads -/

theorem tallyReadable_congr {s t : State} (h : t.col.volState = s.col.volState) : tallyReadable t = tallyReadable s := by
  simp [tallyReadable, h]

theorem tallyReadable_of_active {s : State} (h : volumeActive s) : tallyReadable s = true := by
  rcases h with h | h | h <;> simp [tallyReadable, h]

theorem leafCount_congr {s t : State} (h : t.col.volume = s.col.volume) : leafCount t = leafCount s := by
  simp [leafCount, h]

theorem changeState_col (x : Target) (a b : TState) (t : State) :
    (changeState x a b t).col = (modifyFields x ({ · with state := b }) t).col := moveCount_col ..

theorem unsettle_of_settled {x : Target} {b : TState} {t : State} (was : stateOf t x = some b) (n : b ≠ .pending) :
    unsettle x t = changeState x b .pending t := by simp [unsettle, was, n]

theorem allPanels_foldouts {s t : State} (h : t.col.foldouts = s.col.foldouts) : allPanels t = allPanels s := by
  simp [allPanels, panelsUnder, panelsOf, h]

theorem stateOf_modifyLeaf (t : State) (i : Nat) {g : LeafRecord → LeafRecord}
    (keep : ∀ l, (g l).recto = l.recto ∧ (g l).verso = l.verso) : stateOf (modifyLeaf i g t) = stateOf t := by
  funext x
  simp only [stateOf, fieldsOf_modifyLeaf t i keep]

/-- A charge changes the collation as a change of the target's dose, or not at all. -/
theorem charge_col (x : Target) (n : Nat) (t : State) :
    (charge x n t).col = (modifyFields x (fun q => { q with dose := q.dose + n }) t).col ∨ charge x n t = t := by
  unfold charge
  split
  · exact .inl rfl
  · exact .inr rfl

theorem stateOf_charge (x : Target) (n : Nat) (t : State) : stateOf (charge x n t) = stateOf t := by
  rcases charge_col x n t with h | h
  · exact (stateOf_col h).trans (stateOf_modify_keep fun _ => rfl)
  · rw [h]

theorem charge_shape (x : Target) (n : Nat) (t : State) :
    (charge x n t).col.volState = t.col.volState ∧ (charge x n t).col.volume = t.col.volume ∧
    (charge x n t).col.leaves.length = t.col.leaves.length := by
  rcases charge_col x n t with h | h
  · rw [h]; exact modifyFields_shape ..
  · rw [h]; exact ⟨rfl, rfl, rfl⟩

/-! ### The counters (07 R135, R137) -/

/-- The counters' law rests on the collation's shape, the two counters and the targets' states. -/
theorem countersLaw_congr {s t : State} (vs : t.col.volState = s.col.volState) (vol : t.col.volume = s.col.volume)
    (len : t.col.leaves.length = s.col.leaves.length) (panels : allPanels t = allPanels s) (states : stateOf t = stateOf s)
    (sides : t.tally.sideCounts = s.tally.sideCounts) (ps : t.tally.panelCounts = s.tally.panelCounts)
    (h : countersLaw s) : countersLaw t := by
  obtain ⟨hlen, hcount⟩ := h
  refine ⟨fun hv => by rw [len, leafCount_congr vol]; exact hlen (vs ▸ hv), fun hr => ?_⟩
  simp only [sideStates, panelStates, states, panels, allSides_congr len, sides, ps]
  exact hcount (tallyReadable_congr vs ▸ hr)

theorem countersLaw_changeState {t : State} {x : Target} {a b : TState} (was : stateOf t x = some a)
    (h : countersLaw t) : countersLaw (changeState x a b t) := by
  obtain ⟨hlen, hcount⟩ := h
  obtain ⟨vs, vol, len⟩ := modifyFields_shape x ({ · with state := b }) t
  rw [← changeState_col x a b t] at vs vol len
  refine ⟨fun hv => ?_, fun hr => ?_⟩
  · rw [leafCount_congr vol, len]
    exact hlen (vs ▸ hv)
  · obtain ⟨hs, hp⟩ := hcount (tallyReadable_congr vs ▸ hr)
    exact changeState_counters was hs hp

theorem countersLaw_dropRetake {t : State} (x : Target) (h : countersLaw t) : countersLaw (dropRetake x t) := by
  obtain ⟨hc, hs, hp⟩ := dropRetake_tally x t
  exact countersLaw_congr (by rw [hc]) (by rw [hc]) (by rw [hc]) (allPanels_col hc) (stateOf_col hc) hs hp h

theorem countersLaw_makeReady {t : State} (loading : t.col.volState = .loading) (h : countersLaw t) :
    countersLaw (makeReady t) := by
  refine ⟨fun _ => ?_, fun _ => ⟨rfl, rfl⟩⟩
  have hl : (makeReady t).col.leaves.length = t.col.leaves.length := by simp [makeReady, readyCollation]
  rw [hl, h.1 (by simp [loading])]
  rfl

theorem Does.countersLaw {L : Prop} {s t : State} (h : Does L s t) (k : countersLaw s) : countersLaw t := by
  induction h with
  | refl => exact k
  | settled _ x a was _ ih => exact countersLaw_dropRetake x (countersLaw_changeState was ih)
  | unsettled _ x b was _ ih => exact countersLaw_changeState was ih
  | retaken _ i f b was n _ _ ih =>
    have k := countersLaw_changeState (b := .pending) was ih
    rw [← unsettle_of_settled was n] at k
    exact k
  | @fields t _ x g keep ih =>
    obtain ⟨vs, vol, len⟩ := modifyFields_shape x g t
    refine countersLaw_congr vs vol len (by simp) (stateOf_modify_keep fun q => (keep q).1) ?_ ?_ ih <;>
      rw [modifyFields_rest]
  | @charged t _ x n _ ih =>
    obtain ⟨vs, vol, len⟩ := charge_shape x n t
    refine countersLaw_congr vs vol len ?_ (stateOf_charge x n t) ?_ ?_ ih
    · rcases charge_col x n t with h | h
      · rw [allPanels_col h, allPanels_modifyFields]
      · rw [h]
    all_goals rw [charge_rest]
  | volState _ v was now ih =>
    exact ⟨fun _ => ih.1 (by rcases was with h | h | h <;> simp [h]), fun _ => ih.2 (tallyReadable_of_active was)⟩
  | loaded _ c l vs vol len ih =>
    refine ⟨fun _ => ?_, fun hr => by simp [tallyReadable, vs] at hr⟩
    exact (len (ih.1 (by simp [l]))).trans (by simp [leafCount, vol])
  | @amended t _ i g keep ih =>
    exact countersLaw_congr (s := t) rfl rfl (by simp [modifyLeaf]) (allPanels_foldouts rfl)
      (stateOf_modifyLeaf t i keep) rfl rfl ih
  | readied _ l ih => exact countersLaw_makeReady l ih
  | opened _ v _ _ _ _ => exact ⟨fun _ => by simp [openWith, leafCount], fun hr => by simp [tallyReadable, openWith] at hr⟩
  | ended _ _ => exact ⟨fun hv => absurd rfl hv, nofun⟩
  | reset _ _ c _ => exact ⟨fun hv => absurd rfl hv, nofun⟩
  | released _ held ih => rw [releaseReset, if_pos held]; exact ih
  | _ => assumption

/-- The states of targets that all have fields are as many as the targets. -/
theorem length_filterMap_stateOf {s : State} {l : List Target} (h : ∀ t ∈ l, t ∈ allTargets s) :
    (l.filterMap (stateOf s)).length = l.length := by
  induction l with
  | nil => rfl
  | cons t l ih =>
    obtain ⟨q, hq⟩ := Option.isSome_iff_exists.mp (fieldsOf_isSome_iff.mpr (h t (List.mem_cons_self ..)))
    have ht : stateOf s t = some q.state := by simp [stateOf, hq]
    rw [List.filterMap_cons_some ht, List.length_cons, List.length_cons, ih fun u hu => h u (List.mem_cons_of_mem _ hu)]

theorem length_allSides (s : State) : (allSides s).length = 2 * s.col.leaves.length := by
  simp [allSides, List.length_flatMap, Nat.mul_comm]

theorem length_allPanels (s : State) : (allPanels s).length = panelsLoaded s.col.foldouts := by
  have each : (List.range s.col.foldouts.length).map (fun f => ((panelsOf s f).getD []).length) =
      s.col.foldouts.map fun f => (f.getD []).length :=
    List.ext_getElem (by simp) fun i _ hi => by
      simp only [List.length_map] at hi
      simp [panelsOf, List.getElem?_eq_getElem hi]
  simp [allPanels, panelsUnder, List.length_flatMap, panelsLoaded, each]

/-- Settles O56: every change of Moves.lean keeps the counters, and what they count are all sides and all panels. -/
theorem everyStepKeepsTheCounters : Obligations.EveryStepKeepsTheCounters := by
  refine ⟨fun s t k e => (step_does e).countersLaw k, fun s ⟨hlen, hcount⟩ hr => ?_⟩
  have held : s.col.volState ≠ .empty := fun h => by simp [tallyReadable, h] at hr
  obtain ⟨hs, hp⟩ := hcount hr
  constructor
  · rw [hs, countStates_total, sideStates, length_filterMap_stateOf fun t ht => List.mem_append_left _ ht,
      length_allSides, hlen held]
  · rw [hp, countStates_total, panelStates, length_filterMap_stateOf fun t ht => List.mem_append_right _ ht,
      length_allPanels]

/-! ### The retake list (07 R142) -/

theorem retakeKey_injective : Function.Injective retakeKey := by
  rintro ⟨i, f⟩ ⟨j, g⟩ h
  cases f <;> cases g <;> simp_all [retakeKey, Face.num] <;> omega

theorem mem_insertRetake {e x : Nat × Face} {l : List (Nat × Face)} : x ∈ insertRetake e l ↔ x = e ∨ x ∈ l := by
  induction l with
  | nil => simp [insertRetake]
  | cons y l ih =>
    unfold insertRetake
    split
    · simp
    · simp only [List.mem_cons, ih]; tauto

theorem length_insertRetake (e : Nat × Face) (l : List (Nat × Face)) : (insertRetake e l).length = l.length + 1 := by
  induction l with
  | nil => rfl
  | cons y l ih =>
    unfold insertRetake
    split
    · rfl
    · rw [List.length_cons, ih, List.length_cons]

/-- A list in order stays in order when an entry that is not in it is inserted. -/
theorem sorted_insertRetake {e : Nat × Face} {l : List (Nat × Face)} (hl : (l.map retakeKey).Pairwise (· < ·))
    (he : e ∉ l) : ((insertRetake e l).map retakeKey).Pairwise (· < ·) := by
  rw [List.pairwise_map] at hl ⊢
  induction l with
  | nil => exact List.pairwise_singleton ..
  | cons y l ih =>
    obtain ⟨hy, hl'⟩ := List.pairwise_cons.mp hl
    obtain ⟨hey, hel⟩ := not_or.mp (List.mem_cons.not.mp he)
    unfold insertRetake
    split
    · next lt =>
      refine List.pairwise_cons.mpr ⟨fun x hx => ?_, hl⟩
      rcases List.mem_cons.mp hx with rfl | hx
      · exact lt
      · exact Nat.lt_trans lt (hy x hx)
    · next nlt =>
      refine List.pairwise_cons.mpr ⟨fun x hx => ?_, ih hl' hel⟩
      rcases mem_insertRetake.mp hx with rfl | hx
      · exact Nat.lt_of_le_of_ne (Nat.not_lt.mp nlt) fun h => hey (retakeKey_injective h.symm)
      · exact hy x hx

/-- The list's law rests on the volume state, the list and the sides' states. -/
theorem retakesLaw_congr {s t : State} (vs : t.col.volState = s.col.volState) (states : stateOf t = stateOf s)
    (list : t.tally.retakes = s.tally.retakes) (h : retakesLaw s) : retakesLaw t := by
  obtain ⟨h1, h2, h3, h4⟩ := h
  refine ⟨by rwa [list], by rwa [list], fun e he => ?_, fun hr => ?_⟩
  · rw [states]; exact h3 e (list ▸ he)
  · rw [list]; exact h4 (tallyReadable_congr vs ▸ hr)

theorem retakesLaw_empty {t : State} (h : t.tally.retakes = []) : retakesLaw t := by
  simp [retakesLaw, h]

theorem changeState_volState (x : Target) (a b : TState) (t : State) :
    (changeState x a b t).col.volState = t.col.volState := by
  rw [changeState_col]; exact (modifyFields_shape ..).1

/-- The retake list after a settling: the side settled has left it. -/
theorem mem_dropRetake {x : Target} {t : State} {e : Nat × Face} (h : e ∈ (dropRetake x t).tally.retakes) :
    e ∈ t.tally.retakes ∧ Target.side e.1 e.2 ≠ x := by
  cases x with
  | side i f =>
    simp only [dropRetake, List.mem_filter, bne_iff_ne] at h
    refine ⟨h.1, fun hx => h.2 ?_⟩
    cases hx
    rfl
  | panel f n => exact ⟨h, nofun⟩

theorem dropRetake_sublist (x : Target) (t : State) : (dropRetake x t).tally.retakes.Sublist t.tally.retakes := by
  cases x with
  | side i f => exact List.filter_sublist
  | panel f n => exact List.Sublist.refl _

theorem retakesLaw_settled {t : State} (x : Target) (a : TState) (h : retakesLaw t) :
    retakesLaw (dropRetake x (changeState x .pending a t)) := by
  obtain ⟨h1, h2, h3, h4⟩ := h
  have sub := dropRetake_sublist x (changeState x .pending a t)
  rw [changeState_retakes] at sub
  refine ⟨h1.sublist (sub.map _), sub.length_le.trans h2, fun e he => ?_, fun hr => ?_⟩
  · obtain ⟨hm, hx⟩ := mem_dropRetake he
    rw [changeState_retakes] at hm
    rw [stateOf_col (dropRetake_tally x _).1, stateOf_changeState, if_neg hx]
    exact h3 e hm
  · rw [tallyReadable_congr (s := t) (by rw [(dropRetake_tally x _).1, changeState_volState])] at hr
    exact List.sublist_nil.mp (h4 hr ▸ sub)

theorem retakesLaw_unsettled {t : State} {x : Target} {b : TState} (was : stateOf t x = some b) (h : retakesLaw t) :
    retakesLaw (changeState x b .pending t) := by
  obtain ⟨h1, h2, h3, h4⟩ := h
  refine ⟨by rwa [changeState_retakes], by rwa [changeState_retakes], fun e he => ?_, fun hr => ?_⟩
  · rw [stateOf_changeState]
    split
    · rw [was]; rfl
    · exact h3 e (changeState_retakes x b .pending t ▸ he)
  · rw [changeState_retakes]
    exact h4 (tallyReadable_congr (changeState_volState x b .pending t) ▸ hr)

theorem retakesLaw_retaken {t : State} {i : Nat} {f : Face} {b : TState} (was : stateOf t (.side i f) = some b)
    (n : b ≠ .pending) (room : t.tally.retakes.length < 128) (vol : volumeActive t) (h : retakesLaw t) :
    retakesLaw (retakeSide i f t) := by
  have hnew : (i, f) ∉ t.tally.retakes := fun hm => n (Option.some.inj (was.symm.trans (h.2.2.1 _ hm)))
  obtain ⟨h1, h2, h3, h4⟩ := retakesLaw_unsettled was h
  rw [← unsettle_of_settled was n] at h1 h2 h3 h4
  have hlist : (unsettle (.side i f) t).tally.retakes = t.tally.retakes := by
    rw [unsettle_of_settled was n, changeState_retakes]
  have hpend : stateOf (unsettle (.side i f) t) (.side i f) = some .pending := by
    rw [unsettle_of_settled was n, stateOf_changeState, if_pos rfl, was]; rfl
  refine ⟨sorted_insertRetake h1 (hlist ▸ hnew), ?_, fun e he => ?_, fun hr => ?_⟩
  · show (insertRetake _ _).length ≤ 128
    rw [length_insertRetake, hlist]; exact room
  · rw [stateOf_col (s := unsettle (.side i f) t) (s' := retakeSide i f t) rfl]
    rcases mem_insertRetake.mp he with rfl | he
    · exact hpend
    · exact h3 e he
  · have : tallyReadable (retakeSide i f t) = tallyReadable t := by
      refine tallyReadable_congr ?_
      show (unsettle (.side i f) t).col.volState = _
      rw [unsettle_of_settled was n, changeState_volState]
    rw [this, tallyReadable_of_active vol] at hr
    cases hr

theorem Does.retakesLaw {L : Prop} {s t : State} (h : Does L s t) (k : retakesLaw s) : retakesLaw t := by
  induction h with
  | refl => exact k
  | settled _ x a _ _ ih => exact retakesLaw_settled x a ih
  | unsettled _ x b was _ ih => exact retakesLaw_unsettled was ih
  | retaken _ i f b was n room vol ih => exact retakesLaw_retaken was n room vol ih
  | @fields t _ x g keep ih =>
    exact retakesLaw_congr (modifyFields_shape x g t).1 (stateOf_modify_keep fun q => (keep q).1)
      (by rw [modifyFields_rest]) ih
  | @charged t _ x n _ ih => exact retakesLaw_congr (charge_shape x n t).1 (stateOf_charge x n t) (by rw [charge_rest]) ih
  | volState _ v was now ih =>
    refine ⟨ih.1, ih.2.1, ih.2.2.1, fun hr => ?_⟩
    rcases now with rfl | rfl | rfl <;> cases hr
  | loaded _ c l _ _ _ ih => exact retakesLaw_empty (ih.2.2.2 (by simp [tallyReadable, l]))
  | @amended t _ i g keep ih => exact retakesLaw_congr (s := t) rfl (stateOf_modifyLeaf t i keep) rfl ih
  | readied _ l ih => exact retakesLaw_empty (ih.2.2.2 (by simp [tallyReadable, l]))
  | opened _ v _ _ _ _ => exact retakesLaw_empty rfl
  | ended _ _ => exact retakesLaw_empty rfl
  | reset _ _ c _ => exact retakesLaw_empty rfl
  | released _ held ih => rw [releaseReset, if_pos held]; exact ih
  | _ => assumption

/-- Settles O57: every change of Moves.lean keeps the list's law; a side joins it at its place, and leaves it as it
settles. -/
theorem everyStepKeepsTheRetakeList : Obligations.EveryStepKeepsTheRetakeList :=
  fun _ _ k e => (step_does e).retakesLaw k

end Sys2Proof.Machine
end

section
/-! PROOFS of the family of invariants. The dose account and the dose limits (04 R79, R80). -/

namespace Sys2Proof.Machine

/-! ### What the account reads -/

theorem priorDose_congr {s t : State} (h : t.col.volume = s.col.volume) : priorDose t = priorDose s := by
  simp [priorDose, h]

theorem doseLimits_congr {s t : State} (vol : t.col.volume = s.col.volume)
    (limits : t.settings.limits = s.settings.limits) : doseLimits t = doseLimits s := by
  simp [doseLimits, vol, limits]

theorem doseOf_modifyLeaf (t : State) (i : Nat) {g : LeafRecord → LeafRecord}
    (keep : ∀ l, (g l).recto = l.recto ∧ (g l).verso = l.verso) : doseOf (modifyLeaf i g t) = doseOf t := by
  funext x
  simp only [doseOf, fieldsOf_modifyLeaf t i keep]

/-- A change of state keeps every dose. -/
theorem doseOf_changeState (x : Target) (a b : TState) (t : State) : doseOf (changeState x a b t) = doseOf t :=
  (doseOf_col (changeState_col x a b t)).trans (doseOf_modify_keep fun _ => rfl)

theorem changeState_volume (x : Target) (a b : TState) (t : State) :
    (changeState x a b t).col.volume = t.col.volume := by
  rw [changeState_col]; exact (modifyFields_shape ..).2.1

theorem changeState_leaves_length (x : Target) (a b : TState) (t : State) :
    (changeState x a b t).col.leaves.length = t.col.leaves.length := by
  rw [changeState_col]; exact (modifyFields_shape ..).2.2

theorem allPanels_changeState (x : Target) (a b : TState) (t : State) :
    allPanels (changeState x a b t) = allPanels t :=
  (allPanels_col (changeState_col x a b t)).trans (allPanels_modifyFields ..)

/-! ### One change that keeps every dose -/

/-- What the laws of the doses read: the volume, its state, the targets, their doses and the volume dose. -/
structure DosesStand (s t : State) : Prop where
  volState : t.col.volState = s.col.volState
  volume : t.col.volume = s.col.volume
  targets : allTargets t = allTargets s
  doses : doseOf t = doseOf s
  volDose : t.dose.volDose = s.dose.volDose

theorem dosesStand_changeState (x : Target) (a b : TState) (t : State) : DosesStand t (changeState x a b t) where
  volState := changeState_volState ..
  volume := changeState_volume ..
  targets := by rw [allTargets, allSides_congr (changeState_leaves_length x a b t), allPanels_changeState]; rfl
  doses := doseOf_changeState ..
  volDose := by rw [changeState_rest]

theorem dosesStand_settled (x : Target) (a : TState) (t : State) :
    DosesStand t (dropRetake x (changeState x .pending a t)) := by
  obtain ⟨h1, h2, h3, h4, h5⟩ := dosesStand_changeState x .pending a t
  have hc := (dropRetake_tally x (changeState x .pending a t)).1
  refine ⟨by rw [hc, h1], by rw [hc, h2], ?_, by rw [doseOf_col hc, h4], by rw [dropRetake_rest, h5]⟩
  rw [← h3, allTargets, allTargets, allSides_congr (s := changeState x .pending a t) (by rw [hc]), allPanels_col hc]

theorem dosesStand_retaken {t : State} {i : Nat} {f : Face} {b : TState} (was : stateOf t (.side i f) = some b)
    (n : b ≠ .pending) : DosesStand t (retakeSide i f t) := by
  obtain ⟨h1, h2, h3, h4, h5⟩ := dosesStand_changeState (.side i f) b .pending t
  rw [← unsettle_of_settled was n] at h1 h2 h3 h4 h5
  exact ⟨h1, h2, h3, h4, h5⟩

theorem dosesStand_fields (x : Target) {g : TallyFields → TallyFields} (keep : ∀ q, (g q).dose = q.dose) (t : State) :
    DosesStand t (modifyFields x g t) where
  volState := (modifyFields_shape x g t).1
  volume := (modifyFields_shape x g t).2.1
  targets := allTargets_modifyFields ..
  doses := doseOf_modify_keep keep
  volDose := by rw [modifyFields_rest]

theorem dosesStand_amended (i : Nat) {g : LeafRecord → LeafRecord}
    (keep : ∀ l, (g l).recto = l.recto ∧ (g l).verso = l.verso) (t : State) : DosesStand t (modifyLeaf i g t) where
  volState := rfl
  volume := rfl
  targets := by
    rw [allTargets, allTargets, allSides_congr (s := t) (by simp [modifyLeaf]),
      allPanels_foldouts (s := t) (t := modifyLeaf i g t) rfl]
  doses := doseOf_modifyLeaf t i keep
  volDose := rfl

/-- END LOADING leaves every target with no dose (01 R16). -/
theorem doseOf_makeReady (t : State) (x : Target) : doseOf (makeReady t) x = 0 := by
  cases x with
  | side i f =>
    simp only [doseOf, fieldsOf, makeReady, readyCollation, List.getElem?_mapIdx]
    cases t.col.leaves[i]? with
    | none => rfl
    | some l => cases f <;> rfl
  | panel f n =>
    simp only [doseOf, fieldsOf, panelsOf, makeReady, readyCollation, List.getElem?_map]
    rcases t.col.foldouts[f]? with _ | (_ | ps)
    · rfl
    · rfl
    · by_cases hn : n = 0
      · simp [hn]
      · cases h : ps[n - 1]? <;> simp [hn, h, TallyFields.blank]

/-! ### The account (04 R80) -/

theorem accountLaw_congr {s t : State} (k : DosesStand s t) (h : accountLaw s) : accountLaw t := by
  intro hr
  rw [k.volDose, h (tallyReadable_congr k.volState ▸ hr), priorDose_congr k.volume, doseSum, doseSum, k.targets, k.doses]

theorem accountLaw_charged {t : State} (x : Target) (n : Nat) (h : accountLaw t) : accountLaw (charge x n t) := by
  obtain ⟨vs, vol, -⟩ := charge_shape x n t
  intro hr
  rw [volDose_charge, doseSum_charge, priorDose_congr vol, h (tallyReadable_congr vs ▸ hr), Nat.add_assoc]

theorem accountLaw_makeReady (t : State) : accountLaw (makeReady t) := by
  intro _
  have none : doseSum (makeReady t) = 0 := List.sum_eq_zero fun d hd => by
    obtain ⟨x, -, rfl⟩ := List.mem_map.mp hd
    exact doseOf_makeReady t x
  rw [none]
  rfl

theorem Does.accountLaw {L : Prop} {s t : State} (h : Does L s t) (k : accountLaw s) : accountLaw t := by
  induction h with
  | refl => exact k
  | settled _ x a _ _ ih => exact accountLaw_congr (dosesStand_settled x a _) ih
  | unsettled _ x b _ _ ih => exact accountLaw_congr (dosesStand_changeState x b .pending _) ih
  | retaken _ i f b was n _ _ ih => exact accountLaw_congr (dosesStand_retaken was n) ih
  | fields _ x g keep ih => exact accountLaw_congr (dosesStand_fields x (fun q => (keep q).2) _) ih
  | charged _ x n _ ih => exact accountLaw_charged x n ih
  | volState _ v was _ ih => exact fun _ => ih (tallyReadable_of_active was)
  | lock _ d v _ ih => exact fun hr => v.trans (ih hr)
  | loaded _ c _ vs _ _ _ => exact fun hr => by simp [tallyReadable, vs] at hr
  | amended _ i g keep ih => exact accountLaw_congr (dosesStand_amended i keep _) ih
  | readied _ _ _ => exact accountLaw_makeReady _
  | opened _ v _ _ _ _ => exact nofun
  | ended _ _ => exact nofun
  | reset _ _ c _ => exact nofun
  | released _ held ih => rw [releaseReset, if_pos held]; exact ih
  | _ => assumption

/-- Settles O58: a charge moves both sides of the account together, and no other change of Moves.lean touches a dose. -/
theorem everyStepKeepsTheDoseAccount : Obligations.EveryStepKeepsTheDoseAccount :=
  fun _ _ k e => (step_does e).accountLaw k

/-! ### A part with no volume (10 R177, R180) -/

/-- With a volume that is neither EMPTY nor CLOSED the start-up is over and no recall runs. -/
theorem running_of_quietLaw {s : State} (q : quietLaw s) (e : s.col.volState ≠ .empty) (c : s.col.volState ≠ .closed) :
    s.start = .running ∧ s.store.state ≠ .recalling := by
  obtain ⟨starting, -, recalling⟩ := q
  exact ⟨Decidable.byContradiction fun h => e (starting h), fun h => (recalling h).elim e c⟩

/-- The volume state of a part that runs, without a recall, may become any other. -/
theorem quietLaw_of_running {s t : State} (q : quietLaw s) (e : s.col.volState ≠ .empty) (c : s.col.volState ≠ .closed)
    (start : t.start = s.start) (store : t.store = s.store) : quietLaw t := by
  obtain ⟨run, calm⟩ := running_of_quietLaw q e c
  exact ⟨fun h => absurd (start.trans run) h, fun _ => start.trans run, fun h => absurd (store ▸ h) calm⟩

theorem not_over_of_active {s : State} (h : volumeActive s) : s.col.volState ≠ .empty ∧ s.col.volState ≠ .closed := by
  rcases h with h | h | h <;> simp [h]

theorem Does.quietLaw {L : Prop} {s t : State} (h : Does L s t) (k : quietLaw s) : quietLaw t := by
  induction h with
  | refl => exact k
  | @settled t _ x a _ _ ih =>
    rw [settled_rest]; unfold Machine.quietLaw; dsimp only; rw [changeState_volState]; exact ih
  | @unsettled t _ x b _ _ ih =>
    rw [changeState_rest]; unfold Machine.quietLaw; dsimp only; rw [changeState_volState]; exact ih
  | @retaken t _ i f b was n _ _ ih =>
    rw [retakeSide_rest, unsettle_of_settled was n]
    unfold Machine.quietLaw; dsimp only; rw [changeState_volState]; exact ih
  | @fields t _ x g _ ih =>
    rw [modifyFields_rest]; unfold Machine.quietLaw; dsimp only; rw [(modifyFields_shape x g t).1]; exact ih
  | @charged t _ x n _ ih =>
    rw [charge_rest]; unfold Machine.quietLaw; dsimp only; rw [(charge_shape x n t).1]; exact ih
  | volState _ v was _ ih =>
    obtain ⟨e, c⟩ := not_over_of_active was
    exact quietLaw_of_running ih e c rfl rfl
  | link _ _ l _ up ih => exact ⟨ih.1, fun e => ih.2.1 (up e), ih.2.2⟩
  | linkUp _ _ r ih => exact ⟨ih.1, fun _ => r, ih.2.2⟩
  | firstUp _ _ a ih => exact ⟨fun e => absurd rfl e, fun _ => rfl, ih.2.2⟩
  | store _ q _ rc ih =>
    refine ⟨ih.1, ih.2.1, fun e => ?_⟩
    rcases rc e with h | h
    · exact ih.2.2 h
    · exact h
  | loaded _ c l _ _ _ ih => exact quietLaw_of_running ih (by simp [l]) (by simp [l]) rfl rfl
  | readied _ l ih => exact quietLaw_of_running ih (by simp [l]) (by simp [l]) rfl rfl
  | opened _ v up idle _ ih =>
    exact ⟨fun e => absurd (ih.2.1 up) e, ih.2.1, fun e => absurd e idle⟩
  | ended _ ih => exact ⟨fun _ => rfl, ih.2.1, fun _ => .inl rfl⟩
  | reset _ _ c _ => exact ⟨fun _ => rfl, nofun, fun _ => .inl rfl⟩
  | released _ held ih =>
    rw [releaseReset, if_pos held]
    have e : _ := ih.1 (by simp [held])
    exact ⟨fun _ => e, fun up => absurd (ih.2.1 up) (by simp [held]), fun _ => .inl e⟩
  | startup _ r q _ ih =>
    have e := ih.1 (by simp [r])
    exact ⟨fun _ => e, fun up => absurd (ih.2.1 up) (by simp [r]), nofun⟩
  | _ => assumption

/-! ### The limits (04 R79) -/

theorem volumeActive_congr {s t : State} (h : t.col.volState = s.col.volState) : volumeActive t = volumeActive s := by
  simp [volumeActive, h]

theorem limitsLaw_congr {s t : State} (k : DosesStand s t) (limits : t.settings.limits = s.settings.limits)
    (h : limitsLaw s) : limitsLaw t := by
  obtain ⟨active, loading⟩ := h
  unfold Machine.limitsLaw
  rw [volumeActive_congr k.volState, k.volState, doseLimits_congr k.volume limits, k.doses, k.volDose,
    priorDose_congr k.volume]
  exact ⟨active, loading⟩

/-- The limits bind only a volume that is loaded or being loaded. -/
theorem limitsLaw_over {s : State} (h : s.col.volState = .empty ∨ s.col.volState = .closed) : limitsLaw s := by
  rcases h with h | h <;> exact ⟨fun a => by simp [volumeActive, h] at a, fun l => by simp [h] at l⟩

theorem limitsLaw_charged {t : State} (x : Target) (n : Nat)
    (fits : volumeActive t → doseOf t x ≤ (doseLimits t).side → t.dose.volDose ≤ (doseLimits t).volume →
      doseOf t x + n ≤ (doseLimits t).side ∧ t.dose.volDose + n ≤ (doseLimits t).volume)
    (h : limitsLaw t) : limitsLaw (charge x n t) := by
  obtain ⟨active, loading⟩ := h
  obtain ⟨vs, vol, -⟩ := charge_shape x n t
  have lim : doseLimits (charge x n t) = doseLimits t := doseLimits_congr vol (by rw [charge_rest])
  unfold Machine.limitsLaw
  rw [volumeActive_congr vs, vs, lim, priorDose_congr vol]
  refine ⟨fun a => ?_, loading⟩
  obtain ⟨volFits, doseFits⟩ := active a
  obtain ⟨side, volume⟩ := fits a (doseFits x) volFits
  refine ⟨?_, fun u => ?_⟩
  · rw [volDose_charge]
    split <;> omega
  · rw [doseOf_charge]
    split
    · exact side
    · exact doseFits u

/-- A volume that becomes READY carries its prior dose, which fits, and no other (01 R16). -/
theorem limitsLaw_makeReady {t : State} (l : t.col.volState = .loading) (h : limitsLaw t) : limitsLaw (makeReady t) := by
  refine ⟨fun _ => ⟨h.2 l, fun u => ?_⟩, nofun⟩
  rw [doseOf_makeReady]
  exact Nat.zero_le _

theorem limitsLaw_volState {t : State} {v : VolState} (was : volumeActive t)
    (now : v = .scanning ∨ v = .paused ∨ v = .closed) (h : limitsLaw t) : limitsLaw (setVolState v t) :=
  ⟨fun _ => h.1 was, fun l => by rcases now with rfl | rfl | rfl <;> cases l⟩

/-- While a volume is loading no dose is charged, so a new table keeps the prior dose within the limit. -/
theorem limitsLaw_loaded {t : State} {c : Collation} (vs : c.volState = .loading) (vol : c.volume = t.col.volume)
    (l : t.col.volState = .loading) (h : limitsLaw t) : limitsLaw { t with col := c } := by
  refine ⟨fun a => by simp [volumeActive, vs] at a, fun _ => ?_⟩
  rw [priorDose_congr (s := t) vol, doseLimits_congr (s := t) (t := { t with col := c }) vol rfl]
  exact h.2 l

theorem Does.limitsLaw {L : Prop} {s t : State} (h : Does L s t) (k : limitsLaw s) (q : Machine.quietLaw s) : limitsLaw t := by
  induction h with
  | refl => exact k
  | settled _ x a _ _ ih => exact limitsLaw_congr (dosesStand_settled x a _) (by rw [settled_rest]) ih
  | unsettled _ x b _ _ ih =>
    exact limitsLaw_congr (dosesStand_changeState x b .pending _) (by rw [changeState_rest]) ih
  | retaken _ i f b was n _ _ ih => exact limitsLaw_congr (dosesStand_retaken was n) (by rw [retakeSide_rest]) ih
  | fields _ x g keep ih =>
    exact limitsLaw_congr (dosesStand_fields x (fun q => (keep q).2) _) (by rw [modifyFields_rest]) ih
  | charged _ x n fits ih => exact limitsLaw_charged x n fits ih
  | volState _ v was now ih => exact limitsLaw_volState was now ih
  | lock _ d v _ ih => exact ⟨fun a => ⟨v.trans_le (ih.1 a).1, (ih.1 a).2⟩, ih.2⟩
  | @settings t _ q' _ lim ih =>
    rcases lim with lim | done
    · exact limitsLaw_congr (s := t) ⟨rfl, rfl, rfl, rfl, rfl⟩ lim ih
    · exact limitsLaw_over done
  | recalled h r _ => exact limitsLaw_over ((h.quietLaw q).2.2 r)
  | loaded _ c l vs vol _ ih => exact limitsLaw_loaded vs vol l ih
  | amended _ i g keep ih => exact limitsLaw_congr (dosesStand_amended i keep _) rfl ih
  | readied _ l ih => exact limitsLaw_makeReady l ih
  | opened _ v _ _ fits _ => exact ⟨fun a => (by rcases a with a | a | a <;> cases a), fun _ => fits⟩
  | ended _ _ => exact limitsLaw_over (.inl rfl)
  | reset _ _ c _ => exact limitsLaw_over (.inl rfl)
  | released _ held ih => rw [releaseReset, if_pos held]; exact ih
  | startup h r _ _ _ => exact limitsLaw_over (.inl ((h.quietLaw q).1 (by simp [r])))
  | _ => assumption

/-- Settles O59: a charge is made only where it fits, and the limits change only while the volume is EMPTY or CLOSED,
which `quietLaw` says of a recall and of the start-up. -/
theorem everyStepKeepsTheDoseLimits : Obligations.EveryStepKeepsTheDoseLimits :=
  fun _ _ k q e => ⟨(step_does e).limitsLaw k q, (step_does e).quietLaw q⟩

end Sys2Proof.Machine
end

section
/-! PROOFS of the families of the machine and of the decoder (08). What a step runs, and what every directive's rule
answers: one reply, and on a refusal nothing else. -/

namespace Sys2Proof.Machine

/-! ### The queue of commands -/

theorem Does.pending_eq {L : Prop} {s t : State} (h : Does L s t) : t.pending = s.pending := by
  induction h with
  | refl => rfl
  | settled _ x a _ _ ih => rw [settled_rest]; exact ih
  | unsettled _ x b _ _ ih => rw [changeState_rest]; exact ih
  | retaken _ i f b _ _ _ _ ih => rw [retakeSide_rest]; exact ih
  | fields _ x g _ ih => rw [modifyFields_rest]; exact ih
  | charged _ x n _ ih => rw [charge_rest]; exact ih
  | released _ held ih => rw [releaseReset, if_pos held]; exact ih
  | _ => assumption

/-- No command stops or is refused. -/
theorem exec_next (c : Instr) (s : State) : ∃ t, exec c s = .next t := by cases c <;> exact ⟨_, rfl⟩

/-- Settles O1: the definition of a step. -/
theorem stepRunsTheFrontCommand : Obligations.StepRunsTheFrontCommand := fun _ _ _ => rfl

/-- Settles O3: no change of Moves.lean touches the queue. -/
theorem commandsLeaveTheQueueAlone : Obligations.CommandsLeaveTheQueueAlone := by
  intro c s
  obtain ⟨t, h⟩ := exec_next c s
  exact ⟨t, h, (exec_does h).pending_eq⟩

/-! ### Replies (08 R158 to R160) -/

theorem queueReply_accepted {tag : Byte} {code : Slot} {a : Answer} (h : a.code = .ok ∨ a.code = .okClamped) :
    queueReply tag code a = restartDark { a.state with link := { a.state.link with
      replies := a.state.link.replies ++ [⟨tag, code, a.code, a.results⟩] } } := by
  simp [queueReply, h]

theorem queueReply_refused {tag : Byte} {code : Slot} {a : Answer} (h : a.code ≠ .ok) (k : a.code ≠ .okClamped) :
    queueReply tag code a = { a.state with link := { a.state.link with
      replies := a.state.link.replies ++ [⟨tag, code, a.code, a.results⟩] } } := by
  simp [queueReply, h, k]

/-- Settles O5: the two cases of the reply's code. -/
theorem replyRestartsTheDarkDelay : Obligations.ReplyRestartsTheDarkDelay := by
  intro tag code a
  refine ⟨fun h => ?_, fun h k => ?_⟩
  · rw [giveReply, queueReply_accepted h]; rfl
  · rw [giveReply, queueReply_refused h k]

/-! ### What every rule answers -/

/-- An answer to a directive in state `s`: accepted, or the mismatching UNLOCK, or with nothing changed (08 R160). -/
def Judged (s : State) (a : Answer) : Prop :=
  a.code = .ok ∨ a.code = .okClamped ∨ a.code = .keyMismatch ∨ a.state = s

@[simp] theorem judged_refuse (c : ReplyCode) (s : State) : Judged s (refuse c s) := .inr (.inr (.inr rfl))

@[simp] theorem judged_unchanged (c : ReplyCode) (r : List Slot) (s : State) : Judged s ⟨c, r, s⟩ :=
  .inr (.inr (.inr rfl))

@[simp] theorem judged_ok (r : List Slot) (s t : State) : Judged s ⟨.ok, r, t⟩ := .inl rfl

@[simp] theorem judged_mismatch (r : List Slot) (s t : State) : Judged s ⟨.keyMismatch, r, t⟩ := .inr (.inr (.inl rfl))

@[simp] theorem judged_writeAnswer (a b : List Slot) (s t : State) : Judged s (writeAnswer a b t) := by
  unfold writeAnswer
  split
  · exact .inl rfl
  · exact .inr (.inl rfl)

@[simp] theorem judged_readAnswer (e : Option (List Slot)) (s : State) : Judged s (readAnswer e s) := by
  cases e <;> simp [readAnswer]

@[simp] theorem judged_closeVolume (f : Bool) (s : State) : Judged s (closeVolume f s) := .inl rfl

@[simp] theorem judged_resolveFault (q : Resolution) (r : FaultRecord) (s : State) : Judged s (resolveFault q r s) := by
  unfold resolveFault; repeat' split
  all_goals simp

@[simp] theorem judged_writePolarity (i : Nat) (fs : List Slot) (s : State) : Judged s (writePolarity i fs s) := by
  unfold writePolarity; split <;> simp

@[simp] theorem judged_writeLevel (i : Nat) (fs : List Slot) (s : State) : Judged s (writeLevel i fs s) := by
  unfold writeLevel; repeat' split
  all_goals simp

theorem judged_openWrite {n k : Nat} {w : Nat → List Slot → State → Answer} {s : State}
    (h : ∀ i fs, Judged s (w i fs s)) (ws : List Slot) : Judged s (openWrite n k w ws s) := by
  unfold openWrite; repeat' split
  all_goals simp [h]

theorem judged_guardedWrite {n k : Nat} {idle : Bool} {w : Nat → List Slot → State → Answer} {s : State}
    (h : ∀ i fs, Judged s (w i fs s)) (ws : List Slot) : Judged s (guardedWrite n k idle w ws s) := by
  unfold guardedWrite; repeat' split
  all_goals simp [h]

/-- The rule that answers a directive; an event has none. -/
def ruleOf : Instr → State → Answer
  | .openVolume _ ws => openRule ws
  | .writeLeaves _ ws => leavesRule ws
  | .writeFoldouts _ ws => foldoutsRule ws
  | .writeGatherings _ ws => gatheringsRule ws
  | .endLoading _ ws => endLoadingRule ws
  | .amendLeaf _ ws => amendRule ws
  | .skipLeaf _ ws => skipRule ws
  | .discardVolume _ ws => discardRule ws
  | .start _ ws => startRule ws
  | .pause _ ws => pauseRule ws
  | .resume _ ws => resumeRule ws
  | .step _ ws => stepRule ws
  | .setMode _ ws => modeRule ws
  | .resolve _ ws => resolveRule ws
  | .move _ ws => moveRule ws
  | .releaseVacuum _ ws => releaseRule ws
  | .clearLamp _ ws => clearLampRule ws
  | .lock _ ws => lockRule ws
  | .unlock _ ws => unlockRule ws
  | .setKey _ ws => setKeyRule ws
  | .readTally _ ws => readTallyRule ws
  | .closeVolume _ ws => closeRule ws
  | .retake _ ws => retakeRule ws
  | .readClosure _ ws => readClosureRule ws
  | .readTableSettings _ ws => readTableRule ws
  | .readTableCollation _ ws => readTableRule ws
  | .writeLampCalibration _ ws => guardedWrite 12 2 false writeCalibration ws
  | .writeDutyCaps _ ws => guardedWrite 12 1 false writeCap ws
  | .writePreviewDuties _ ws => guardedWrite 12 1 false writePreview ws
  | .writeDoseLimits _ ws => guardedWrite 4 3 true writeLimits ws
  | .writeRecipes _ ws => openWrite 16 26 writeRecipe ws
  | .writeMotionLimits _ ws => openWrite 7 1 writeMotionLimit ws
  | .writeSensorPolarities _ ws => openWrite 11 1 writePolarity ws
  | .writeFrameGeometry _ ws => openWrite 2 7 writeGeometry ws
  | .writeTimers _ ws => openWrite 1 3 writeTimers ws
  | .writeNoticeLevels _ ws => openWrite 16 1 writeLevel ws
  | .writeTableOther _ ws => writeOtherRule ws
  | .readStatus _ ws => statusRule ws
  | .resetPart _ ws => resetPartRule ws
  | .storeSettings _ ws => storeRule ws
  | .recallSettings _ ws => recallRule ws
  | .clearNotices _ ws => clearNoticesRule ws
  | .setNoticeEnables _ ws => enablesRule ws
  | _ => refuse .unknown

/-- A directive is answered by its rule, under its tag and its code (08 R158). -/
theorem exec_ruleOf {c : Instr} {tag : Byte} {code : Slot} {ws : List Slot} (h : payloadOf c = some (tag, code :: ws))
    (s : State) : exec c s = .next (directive tag code (ruleOf c) s) := by
  cases c <;> cases h <;> rfl

theorem payloadOf_cons {c : Instr} {p : Byte × List Slot} (h : payloadOf c = some p) :
    ∃ tag code ws, p = (tag, code :: ws) := by
  cases c <;> cases h <;> exact ⟨_, _, _, rfl⟩

/-- A rule is a tree of tests: each of its leaves answers with the state as it came, or with OK (08 R160). -/
theorem judged_ruleOf (c : Instr) (s : State) : Judged s (ruleOf c s) := by
  cases c
  case writeLampCalibration | writeDutyCaps | writePreviewDuties | writeDoseLimits =>
    refine judged_guardedWrite (fun i fs => ?_) _
    exact judged_writeAnswer ..
  case writeRecipes | writeMotionLimits | writeFrameGeometry | writeTimers =>
    refine judged_openWrite (fun i fs => ?_) _
    exact judged_writeAnswer ..
  case writeSensorPolarities => exact judged_openWrite (fun _ _ => judged_writePolarity ..) _
  case writeNoticeLevels => exact judged_openWrite (fun _ _ => judged_writeLevel ..) _
  all_goals simp only [ruleOf, amendRule, clearLampRule, clearNoticesRule, closeRule, discardRule, enablesRule,
    endLoadingRule, foldoutsRule, gatheringsRule, leavesRule, lockRule, modeRule, moveRule, openRule, pauseRule,
    readClosureRule, readTableRule, readTallyRule, recallRule, releaseRule, resetPartRule, resolveRule, resumeRule,
    retakeRule, setKeyRule, skipRule, startRule, statusRule, stepRule, storeRule, unlockRule, writeOtherRule]
  all_goals repeat' split
  all_goals simp

/-- No rule touches the replies that wait (08 R158). -/
theorem replies_ruleOf {c : Instr} {s : State} (ht : takesDirective s = true) :
    (ruleOf c s).state.link.replies = s.link.replies := by
  have up : s.link.up = true := by
    simp only [takesDirective, Bool.and_eq_true] at ht
    exact ht.1.1
  have r : Does False s s := .refl
  have quiet {t : State} (h : Does False s t) : t.link.replies = s.link.replies := by rw [h.link_eq]
  cases c
  case openVolume => exact quiet (openRule_does r up _)
  case writeLeaves => exact quiet (leavesRule_does r _)
  case writeFoldouts => exact quiet (foldoutsRule_does r _)
  case writeGatherings => exact quiet (gatheringsRule_does r _)
  case endLoading => exact quiet (endLoadingRule_does r _)
  case amendLeaf => exact quiet (amendRule_does r _)
  case skipLeaf => exact quiet (skipRule_does r _)
  case discardVolume => exact quiet (discardRule_does r _)
  case start => exact quiet (startRule_does r _)
  case pause => exact quiet (pauseRule_does r _)
  case resume => exact quiet (resumeRule_does r _)
  case step => exact quiet (stepRule_does r _)
  case setMode => exact quiet (modeRule_does r _)
  case resolve => exact quiet (resolveRule_does r _)
  case move => exact quiet (moveRule_does r _)
  case releaseVacuum => exact quiet (releaseRule_does r _)
  case clearLamp => exact quiet (clearLampRule_does r _)
  case lock => exact quiet (lockRule_does r _)
  case unlock => exact quiet (unlockRule_does r _)
  case setKey => exact quiet (setKeyRule_does r _)
  case readTally => exact quiet (readTallyRule_does r _)
  case closeVolume => exact quiet (closeRule_does r _)
  case retake => exact quiet (retakeRule_does r _)
  case readClosure => exact quiet (readClosureRule_does r _)
  case readTableSettings => exact quiet (readTableRule_does r _)
  case readTableCollation => exact quiet (readTableRule_does r _)
  case writeLampCalibration => exact quiet (guardedWrite_does r (fun i fs _ _ => writeCalibration_does r i fs) _)
  case writeDutyCaps => exact quiet (guardedWrite_does r (fun i fs _ _ => writeCap_does r i fs) _)
  case writePreviewDuties => exact quiet (guardedWrite_does r (fun i fs _ _ => writePreview_does r i fs) _)
  case writeDoseLimits => exact quiet (guardedWrite_does r (fun i fs _ hv => writeLimits_does r i fs (hv rfl)) _)
  case writeRecipes => exact quiet (openWrite_does r (fun i fs _ => writeRecipe_does r i fs) _)
  case writeMotionLimits => exact quiet (openWrite_does r (fun i fs _ => writeMotionLimit_does r i fs) _)
  case writeSensorPolarities => exact quiet (openWrite_does r (fun i fs _ => writePolarity_does r i fs) _)
  case writeFrameGeometry => exact quiet (openWrite_does r (fun i fs _ => writeGeometry_does r i fs) _)
  case writeTimers => exact quiet (openWrite_does r (fun i fs _ => writeTimers_does r i fs) _)
  case writeNoticeLevels => exact quiet (openWrite_does r (fun i fs _ => writeLevel_does r i fs) _)
  case writeTableOther => exact quiet (writeOtherRule_does r _)
  case storeSettings => exact quiet (storeRule_does r _)
  case recallSettings => exact quiet (recallRule_does r _)
  case clearNotices => exact quiet (clearNoticesRule_does r _)
  case setNoticeEnables => exact quiet (enablesRule_does r _)
  case readStatus =>
    simp only [ruleOf, statusRule]
    repeat' split
    all_goals rfl
  case resetPart =>
    simp only [ruleOf, resetPartRule]
    repeat' split
    all_goals rfl
  all_goals rfl

/-- Settles O6: the reply that `directive` queues. -/
theorem everyDirectiveTakenIsAnsweredOnce : Obligations.EveryDirectiveTakenIsAnsweredOnce := by
  intro c tag code ws s h ht
  refine ⟨⟨queueReply tag code (ruleOf c s), (ruleOf c s).code, (ruleOf c s).results, ?_, ?_⟩, ?_⟩
  · rw [exec_ruleOf h, directive_taken ht]; rfl
  · rw [queueReply_replies, replies_ruleOf ht]
  · rintro rfl
    rw [exec_ruleOf h, directive_taken ht, giveReply, queueReply_refused (by simp [ruleOf, refuse]) (by simp [ruleOf, refuse])]
    rfl

/-- Settles O7: a rule that does not accept has changed nothing (`judged_ruleOf`). -/
theorem refusedDirectiveChangesNothing : Obligations.RefusedDirectiveChangesNothing := by
  intro c p s h ht
  obtain ⟨tag, code, ws, rfl⟩ := payloadOf_cons h
  refine ⟨queueReply tag code (ruleOf c s), ⟨tag, code, (ruleOf c s).code, (ruleOf c s).results⟩, ?_, ?_, ?_⟩
  · rw [exec_ruleOf h, directive_taken ht]; rfl
  · rw [queueReply_replies, replies_ruleOf ht]
  · intro nok nclamped nmismatch
    have same : (ruleOf c s).state = s :=
      (((judged_ruleOf c s).resolve_left nok).resolve_left nclamped).resolve_left nmismatch
    rw [queueReply_refused nok nclamped, same]

/-- Settles O8: the tests of `directive`. -/
theorem directivesNotTaken : Obligations.DirectivesNotTaken := by
  intro c p s h
  obtain ⟨tag, code, ws, rfl⟩ := payloadOf_cons h
  rw [exec_ruleOf h]
  refine ⟨fun up noReset full => ?_, fun drop => ?_⟩
  · have nt : takesDirective s = false := by simp [takesDirective, full]
    simp [directive, nt, up, noReset, countUp]
  · rcases drop with w | d
    · simp [directive, takesDirective, w]
    · simp [directive, takesDirective, d]

/-- Settles O9: the first test of each rule is that of the volume state. -/
theorem volumeStatesRefuseDirectives : Obligations.VolumeStatesRefuseDirectives := by
  intro tag ws s ht
  have no {code : Slot} {rule : State → Answer} (h : rule s = ⟨.wrongState, [], s⟩) :
      (.next (directive tag code rule s) : Host.Outcome State Fault Refusal) =
        .next (giveReply tag code ⟨.wrongState, [], s⟩) := by rw [directive_taken ht, h]
  refine ⟨fun h => no ?_, fun h => ⟨no ?_, no ?_, no ?_, no ?_⟩, fun h => no ?_, fun h => no ?_, fun h => no ?_,
    fun h => no ?_, fun h => ⟨no ?_, no ?_, no ?_⟩, fun h => ⟨no ?_, no ?_⟩, fun h => ⟨no ?_, no ?_⟩⟩
  · simp [openRule, h, refuse]
  · simp [leavesRule, h, refuse]
  · simp [foldoutsRule, h, refuse]
  · simp [gatheringsRule, h, refuse]
  · simp [endLoadingRule, h, refuse]
  · simp [amendRule, h, refuse]
  · simp [skipRule, h, refuse]
  · simp [discardRule, h, refuse]
  · simp [startRule, h, refuse]
  · simp [pauseRule, h, refuse]
  · simp [stepRule, h, refuse]
  · simp [modeRule, h, refuse]
  · simp [resumeRule, h, refuse]
  · simp [resolveRule, h, refuse]
  · simp [moveRule, h, refuse]
  · simp [releaseRule, h, refuse]

end Sys2Proof.Machine
end

section
/-! PROOFS of the families of the link's frames (08, 11) and of the values at reset (10). -/

namespace Sys2Proof.Machine

/-! ### Slots and bytes (11 R181) -/

theorem slotOfBytes_slotBytes (w : Slot) :
    slotOfBytes (w.extractLsb' 0 8) (w.extractLsb' 8 8) (w.extractLsb' 16 8) (w.extractLsb' 24 8) = w := by
  unfold slotOfBytes
  apply BitVec.eq_of_getLsbD_eq
  intro i hi
  simp only [BitVec.getLsbD_append, BitVec.getLsbD_extractLsb']
  grind

theorem bytesSlots_slotsBytes (ws : List Slot) : bytesSlots (slotsBytes ws) = some ws := by
  induction ws with
  | nil => rfl
  | cons w ws ih =>
    show bytesSlots (slotBytes w ++ slotsBytes ws) = _
    simp [slotBytes, bytesSlots, ih, slotOfBytes_slotBytes]

theorem length_slotsBytes (ws : List Slot) : (slotsBytes ws).length = 4 * ws.length := by
  simp [slotsBytes, slotBytes, List.length_flatMap, Nat.mul_comm]

theorem halfBytes_append (w : BitVec 16) : (w.extractLsb' 8 8 ++ w.extractLsb' 0 8 : BitVec 16) = w := by
  apply BitVec.eq_of_getLsbD_eq
  intro i hi
  simp only [BitVec.getLsbD_append, BitVec.getLsbD_extractLsb']
  grind

/-! ### Frames (08 R156, 11 R182) -/

/-- A directive's envelope whose payload fits reads back as that payload's directive. -/
theorem decodeFrame_envelope (tag : Byte) (ws : List Slot) (h : ws.length ≤ 512) :
    decodeFrame (envelope 0x01 tag (slotsBytes ws)) = decodePayload tag ws := by
  have len : (slotsBytes ws).length ≤ 2048 := by rw [length_slotsBytes]; omega
  have size : (BitVec.ofNat 16 (slotsBytes ws).length).toNat = (slotsBytes ws).length := by
    rw [BitVec.toNat_ofNat]; omega
  simp only [envelope, halfBytes, List.cons_append, List.nil_append, decodeFrame, halfBytes_append, size]
  simp [len, slotBytes, bytesSlots_slotsBytes]

/-- A table number above 9 names no settings table. -/
theorem decodeWrite_other {tag : Byte} {ws : List Slot} (h : namesNoSettings ws = true) :
    decodeWrite tag ws = .writeTableOther tag ws := by
  cases ws with
  | nil => rfl
  | cons t fs =>
    have big : 9 < t.toNat := by simpa [namesNoSettings] using h
    have no {x y : Instr} (n : Slot) (hn : n.toNat ≤ 9) : (if t = n then x else y) = y :=
      if_neg fun e => by rw [e] at big; omega
    simp only [decodeWrite, no 0 (by decide), no 1 (by decide), no 2 (by decide), no 3 (by decide), no 4 (by decide),
      no 5 (by decide), no 6 (by decide), no 7 (by decide), no 8 (by decide), no 9 (by decide)]

theorem decodeCode_unknown {tag : Byte} {code : Slot} {ws : List Slot} (h : code ∉ directiveCodes) :
    decodeCode tag code ws = .unknown tag code := by
  simp only [directiveCodes, List.mem_cons, List.not_mem_nil, or_false, not_or] at h
  simp only [decodeCode, h, ↓reduceIte]

/-- The payload written for a directive whose row fits it is read as that directive (11 R183). -/
theorem decodePayload_payloadOf {i : Instr} {tag : Byte} {ws : List Slot} (fits : rowFits i = true)
    (h : payloadOf i = some (tag, ws)) : decodePayload tag ws = i := by
  cases i <;> cases h
  case readTableSettings => simp_all [rowFits, decodePayload, decodeCode, decodeRead]
  case readTableCollation => simp_all [rowFits, decodePayload, decodeCode, decodeRead]
  case writeTableOther => exact decodeWrite_other fits
  case unknown => exact decodeCode_unknown (by simpa [rowFits] using fits)
  all_goals rfl

/-- Settles O60: the envelope reads back, the payload reads back, and the receiver puts what it read in the queue. -/
theorem decodeReadsEveryDirectiveBack : Obligations.DecodeReadsEveryDirectiveBack := by
  intro i bytes wf e
  simp only [wellFormed, Bool.and_eq_true] at wf
  obtain ⟨fits, row⟩ := wf
  obtain ⟨⟨tag, ws⟩, hp, rfl⟩ := Option.map_eq_some_iff.mp e
  have len : ws.length ≤ 512 := by simpa [payloadFits, hp] using fits
  have back : decodeFrame (envelope 0x01 tag (slotsBytes ws)) = i :=
    (decodeFrame_envelope tag ws len).trans (decodePayload_payloadOf row hp)
  refine ⟨back, fun s => ⟨fun up idle => ?_, receive_down _ s⟩⟩
  rw [receive_up _ s up, idle, List.nil_append, back, ← idle]

/-! ### The values at reset (10 R178 to R180) -/

/-- Settles O4: the values by definition, and each law of them. -/
theorem resetValues : Obligations.ResetValues := by
  refine ⟨rfl, rfl, rfl, rfl, rfl, rfl, rfl, rfl, rfl, rfl, rfl, rfl, rfl, rfl, rfl, rfl, rfl, rfl, rfl, rfl, rfl, rfl, rfl,
    rfl, rfl, rfl, rfl, rfl, rfl, fun i => by cases i <;> rfl, rfl, rfl, rfl, rfl, rfl, rfl, rfl, rfl,
    fun b => by cases b <;> rfl, rfl, rfl, rfl, rfl, rfl, rfl, rfl, rfl, rfl, rfl, rfl, rfl, rfl, rfl, rfl, rfl, ?_⟩
  refine ⟨⟨Nat.zero_le _, nofun⟩, ⟨Nat.zero_le _, Nat.zero_le _, Nat.zero_le _⟩, idleLaw_down rfl,
    ⟨Port.law_afterReset, Port.law_afterReset⟩, ⟨List.length_replicate, fun q hq => ?_⟩,
    ⟨Settings.law_factory, Settings.law_factory⟩, ⟨List.length_replicate, Nat.zero_lt_succ _, Nat.zero_lt_succ _⟩,
    ⟨fun hv => absurd rfl hv, nofun⟩, retakesLaw_empty rfl, nofun, limitsLaw_over (.inl rfl),
    ⟨fun _ => rfl, nofun, fun _ => .inl rfl⟩⟩
  exact List.eq_of_mem_replicate hq ▸ SourceState.law_clear

end Sys2Proof.Machine
end

section
/-! PROOFS of the family `other`: the directives that answer from the state (01 to 10), rule by rule. -/
namespace Sys2Proof.Machine

/-- A directive that is taken answers with what its rule answers. -/
theorem exec_answers {c : Instr} {tag : Byte} {code : Slot} {rule : State → Answer} {s : State} {a : Answer}
    (htakes : takesDirective s = true) (hexec : exec c s = .next (directive tag code rule s)) (ha : rule s = a) :
    exec c s = .next (giveReply tag code a) := by
  rw [hexec, directive_taken htakes, ha]

theorem storeBusy_iff (s : State) : storeBusy s = true ↔ s.store.state ≠ .idle := by
  simp [storeBusy]

/-! ### The conservation lock and the settings store -/

/-- Settles O23, directive by directive: each rule's tests are those of the statement, in its order. -/
theorem theConservationLock : Obligations.TheConservationLock := by
  intro tag w s htakes
  refine ⟨exec_answers htakes rfl rfl, exec_answers htakes rfl rfl, exec_answers htakes rfl ?_⟩
  simp only [setKeyRule, storeBusy_iff, refuse]
  rfl

/-- Settles O30, directive by directive. -/
theorem storeRecallAndResetBegin : Obligations.StoreRecallAndResetBegin := by
  intro tag s htakes
  refine ⟨exec_answers htakes rfl rfl, exec_answers htakes rfl ?_, exec_answers htakes rfl ?_⟩
  · simp only [storeRule, storeBusy_iff, refuse]
    rfl
  · simp only [recallRule, storeBusy_iff, refuse]
    rfl

/-! ### The notice unit -/

/-- Settles O32: `clearSources` maps over the sources, and the enables are read bit by bit. -/
theorem noticeDirectives : Obligations.NoticeDirectives := by
  intro tag w s htakes
  refine ⟨⟨_, exec_answers htakes rfl rfl, List.length_mapIdx, fun i => ?_⟩, exec_answers htakes rfl ?_⟩
  · rw [List.getElem?_mapIdx]
    change (s.notices.sources[i]?).map (fun q => if w.getLsbD i then .clear else q) = _
    cases w.getLsbD i with
    | false => simp
    | true => rfl
  · simp only [enablesRule, storeBusy_iff, refuse]
    rfl

/-! ### The volume -/

theorem bindingOf_getD (ws : List Slot) (k : Nat) :
    bindingOf (ws.getD k 0) = if at' ws k ≤ 1 then some (if at' ws k = 0 then .ltr else .rtl) else none := by
  simp only [bindingOf, at', ← BitVec.toNat_inj]
  grind

/-- The volume record that the 17 slots of OPEN VOLUME carry, its fields not judged. -/
def carriedVolume (mark : Text) (ws : List Slot) : VolumeRecord where
  shelfMark := mark
  part := at' ws 9
  binding := if at' ws 10 = 0 then .ltr else .rtl
  leafCount := at' ws 11
  doseClass := at' ws 12
  startLeaf := if (ws.getD 13 0).getLsbD 0 then at' ws 14 else 0
  priorDose := if (ws.getD 13 0).getLsbD 1 then some (at' ws 15 * 2 ^ 32 + at' ws 16) else none

/-- Every field of a volume record, and the binding's slot, within its values (01 R9 test 4). -/
def volumeInRange (binding : Nat) (v : VolumeRecord) : Prop :=
  1 ≤ v.part ∧ v.part ≤ 99 ∧ binding ≤ 1 ∧ 1 ≤ v.leafCount ∧ v.leafCount ≤ 2048 ∧ v.doseClass ≤ 3 ∧
    v.startLeaf < v.leafCount ∧ v.priorDose.getD 0 < 2 ^ 48

theorem readVolume_of_inRange {mark : Text} {ws : List Slot} (h : volumeInRange (at' ws 10) (carriedVolume mark ws)) :
    readVolume mark ws = some (carriedVolume mark ws) := by
  obtain ⟨hpart, hparts, hbinding, hleaf, hleaves, hclass, hstart, hprior⟩ := h
  rw [readVolume, bindingOf_getD, if_pos hbinding, Option.bind_some]
  exact if_pos ⟨hpart, hparts, hleaf, hleaves, hclass, hstart, hprior⟩

theorem readVolume_of_not_inRange {mark : Text} {ws : List Slot}
    (h : ¬volumeInRange (at' ws 10) (carriedVolume mark ws)) : readVolume mark ws = none := by
  rw [readVolume, bindingOf_getD]
  by_cases hbinding : at' ws 10 ≤ 1
  · rw [if_pos hbinding, Option.bind_some]
    refine if_neg fun hfields => h ?_
    obtain ⟨hpart, hparts, hleaf, hleaves, hclass, hstart, hprior⟩ := hfields
    exact ⟨hpart, hparts, hbinding, hleaf, hleaves, hclass, hstart, hprior⟩
  · rw [if_neg hbinding, Option.bind_none]

/-- OPEN VOLUME past the tests of state and form: the fields and the prior dose are left. -/
theorem openRule_of_mark {ws : List Slot} {s : State} {mark : Text}
    (hidle : ¬(s.col.volState ≠ .empty ∧ s.col.volState ≠ .closed)) (hrecall : s.store.state ≠ .recalling)
    (hlen : ws.length = 17) (hmark : readText 32 (ws.take 9) = some mark) (hne : mark ≠ []) :
    openRule ws s = match readVolume mark ws with
      | none => refuse .outOfRange s
      | some v => if (s.settings.limits.getD v.doseClass ⟨0, 0⟩).volume < v.priorDose.getD 0 then refuse .doseExhausted s
        else ⟨.ok, [slot (nextSerial s.col.serial)], openWith v s⟩ := by
  rw [openRule, if_neg hidle, if_neg hrecall, if_neg (not_not.2 hlen), hmark]
  cases mark with
  | nil => exact absurd rfl hne
  | cons x xs => rfl

/-- Settles O10: OPEN VOLUME's tests are taken in the rule's order, those of its fields by `volumeInRange`. -/
theorem openVolumeMakesANewVolume : Obligations.OpenVolumeMakesANewVolume := by
  intro tag ws s htakes
  refine ⟨fun hstate => exec_answers htakes rfl (if_pos hstate), fun hstate => ?_⟩
  have hidle : ¬(s.col.volState ≠ .empty ∧ s.col.volState ≠ .closed) := by tauto
  refine ⟨fun hrecall => exec_answers htakes rfl ?_, fun hrecall => ⟨fun hform => exec_answers htakes rfl ?_, ?_⟩⟩
  · rw [openRule, if_neg hidle, if_pos hrecall, refuse]
  · rw [openRule, if_neg hidle, if_neg hrecall]
    rcases hform with hlen | hnone | hempty
    · rw [if_pos hlen, refuse]
    · rw [hnone, ite_self, refuse]
    · rw [hempty, ite_self, refuse]
  intro mark hlen hmark hne
  have hrule := openRule_of_mark hidle hrecall hlen hmark hne
  refine ⟨fun hout => exec_answers htakes rfl ?_, fun hin hlimit => exec_answers htakes rfl ?_,
    fun hin hlimit => exec_answers htakes rfl ?_⟩
  · rw [hrule, readVolume_of_not_inRange hout]
    rfl
  · rw [hrule, readVolume_of_inRange hin]
    exact if_pos hlimit
  · rw [hrule, readVolume_of_inRange hin]
    exact if_neg hlimit.not_gt

/-- Settles O11: the loading rules past their tests. -/
theorem loadingDirectivesWriteTheirTables : Obligations.LoadingDirectivesWriteTheirTables := by
  intro tag ws s htakes hloading
  refine ⟨fun w rs first hread hfirst hfit hrange => exec_answers htakes rfl ?_,
    fun w ps hread hindex hrange hpanels => exec_answers htakes rfl ?_,
    fun w gs hread hfit hrange => exec_answers htakes rfl ?_⟩
  · subst hfirst
    rw [leavesRule, if_neg (not_not.2 hloading), hread]
    exact if_pos ⟨hfit, List.all_eq_true.2 hrange⟩
  · rw [foldoutsRule, if_neg (not_not.2 hloading), hread]
    exact if_pos ⟨hindex, List.all_eq_true.2 hrange, hpanels⟩
  · rw [gatheringsRule, if_neg (not_not.2 hloading), hread]
    exact if_pos ⟨hfit, List.all_eq_true.2 hrange⟩

/-- Settles O13: AMEND LEAF past its tests. -/
theorem amendLeafWritesItsChanges : Obligations.AmendLeafWritesItsChanges := by
  intro tag ws s i htakes hpaused hlen hsome hlabel hfind hcls hhand
  refine exec_answers htakes rfl ?_
  have hform : (!((ws.getD 5 0).getLsbD 0 || (ws.getD 5 0).getLsbD 1 || (ws.getD 5 0).getLsbD 2) ||
      (ws.getD 5 0).getLsbD 0 && (readLabel ((ws.drop 6).take 3)).isNone) = false := by
    rw [hsome]
    cases hbit : (ws.getD 5 0).getLsbD 0 with
    | false => rfl
    | true => simpa using hlabel hbit
  have hrange : ((ws.getD 5 0).getLsbD 1 && decide (15 < at' ws 9) ||
      (ws.getD 5 0).getLsbD 2 && decide (1 < at' ws 10)) = false := by
    have hc : (ws.getD 5 0).getLsbD 1 = true → at' ws 9 ≤ 15 := hcls
    have hh : (ws.getD 5 0).getLsbD 2 = true → at' ws 10 ≤ 1 := hhand
    simpa using ⟨hc, hh⟩
  rw [amendRule, if_neg (not_not.2 hpaused), if_neg (not_not.2 hlen)]
  simp only [hform, hfind, hrange]
  rfl

/-! ### Reading -/

/-- Settles O24: the reads answer from the state; CLEAR sets the counts to 0. -/
theorem readsChangeNothing : Obligations.ReadsChangeNothing := by
  intro tag a b s htakes
  refine ⟨fun hempty hloading hlow hhigh => exec_answers htakes rfl ?_, fun c hclosed hc => exec_answers htakes rfl ?_,
    fun htable => exec_answers htakes rfl ?_, fun hlow hhigh => exec_answers htakes rfl ?_, exec_answers htakes rfl rfl⟩
  · have hready : tallyReadable s = true := by
      revert hempty hloading
      rw [tallyReadable]
      cases s.col.volState <;> simp
    have hcount : ¬(b.toNat = 0 ∨ 64 < b.toNat) := by omega
    rw [readTallyRule, if_neg (by simp [hready]), if_neg (by simp)]
    change (if b.toNat = 0 ∨ 64 < b.toNat then _ else
      if leafCount s ≤ a.toNat ∨ leafCount s < a.toNat + b.toNat then _ else _) = _
    rw [if_neg hcount]
    by_cases hfit : a.toNat + b.toNat ≤ leafCount s
    · rw [if_neg (by omega), if_pos hfit]
      rfl
    · rw [if_pos (by omega), if_neg hfit]
      rfl
  · rw [readClosureRule, if_neg (not_not.2 hclosed), if_neg (by simp), hc]
    by_cases hfirst : (if a.getLsbD 0 then b.toNat else 0) < c.gatherings.length
    · exact (if_neg hfirst.not_ge).trans (if_pos hfirst).symm
    · exact (if_pos (not_lt.1 hfirst)).trans (if_neg hfirst).symm
  · have hknown : ¬13 < num a := by change ¬13 < a.toNat; omega
    rw [readTableRule, if_neg hknown]
    exact if_pos htable
  · have hknown : ¬13 < num a := by change ¬13 < a.toNat; omega
    have hcollation : ¬num a ≤ 9 := by change ¬a.toNat ≤ 9; omega
    rw [readTableRule, if_neg hknown]
    exact if_neg hcollation
end Sys2Proof.Machine
end

section
/-! PROOFS of the family `other`: the settings tables (04, 05, 06, 08, 09) and what an accepted write holds. -/
namespace Sys2Proof.Machine

/-! ### Quantities brought into range -/

theorem clampNat_eq_max_min {lo hi n : Nat} (h : lo ≤ hi) : clampNat lo hi n = max lo (min n hi) := by
  unfold clampNat
  grind

theorem clampNat_zero_eq_min (hi n : Nat) : clampNat 0 hi n = min n hi := by
  rw [clampNat_eq_max_min (Nat.zero_le hi), Nat.zero_max]

theorem clampInt_eq_max_min {lo hi n : Int} (h : lo ≤ hi) : clampInt lo hi n = max lo (min n hi) := by
  unfold clampInt
  grind

theorem clampNat_of_mem {lo hi n : Nat} (hlo : lo ≤ n) (hhi : n ≤ hi) : clampNat lo hi n = n := by
  rw [clampNat, if_neg hlo.not_gt, if_neg hhi.not_gt]

theorem slot_toNat (w : Slot) : slot w.toNat = w := BitVec.eq_of_toNat_eq (Nat.mod_eq_of_lt w.isLt)

theorem toNat_slot {n : Nat} (h : n < 2 ^ 32) : (slot n).toNat = n := Nat.mod_eq_of_lt h

/-- A slot's quantity is held as written exactly when it lies in range. -/
theorem slot_clampNat_eq_iff {lo hi : Nat} {w : Slot} (h : lo ≤ hi) (hhi : hi < 2 ^ 32) :
    w = slot (clampNat lo hi w.toNat) ↔ lo ≤ w.toNat ∧ w.toNat ≤ hi := by
  have hclamp := clampNat_bounds (n := w.toNat) h
  constructor
  · intro hw
    rw [hw, toNat_slot (by omega)]
    exact clampNat_bounds h
  · rintro ⟨hl, hh⟩
    rw [clampNat_of_mem hl hh, slot_toNat]

/-- A trim is held as written exactly when it lies in range. -/
theorem slotInt_clampInt_eq_iff (w : Slot) :
    w = slotInt (clampInt (-256) 255 w.toInt) ↔ -256 ≤ w.toInt ∧ w.toInt ≤ 255 := by
  have hclamp := clampInt_bounds (lo := -256) (hi := 255) (n := w.toInt) (by decide)
  constructor
  · intro hw
    have hint := congrArg BitVec.toInt hw
    rw [slotInt, BitVec.toInt_ofInt, Int.bmod_eq_of_le (by omega) (by omega)] at hint
    omega
  · rintro ⟨hl, hh⟩
    rw [clampInt, if_neg (by omega), if_neg (by omega), slotInt, BitVec.ofInt_toInt]

/-- A write answers OK_CLAMPED exactly when what it holds is not what was written. -/
theorem writeAnswer_of_iff {written entry : List Slot} {clamped : Bool} {s : State}
    (h : clamped = false ↔ written = entry) :
    writeAnswer written entry s = ⟨if clamped then .okClamped else .ok, [], s⟩ := by
  cases clamped with
  | false => rw [writeAnswer, if_pos (h.1 rfl)]; rfl
  | true => rw [writeAnswer, if_neg fun he => Bool.noConfusion (h.2 he)]; rfl

/-! ### Guarded tables (04 R71, R72, R78) -/

/-- The order of 04 R72, for a write of `size` fields. -/
theorem guardedWrite_refuses {entries size : Nat} {idleOnly : Bool} {write : Nat → List Slot → State → Answer}
    {ws : List Slot} {s : State} :
    (ws.length ≠ size + 1 → guardedWrite entries size idleOnly write ws s = ⟨.badForm, [], s⟩) ∧
    (ws.length = size + 1 →
      (s.store.state ≠ .idle → guardedWrite entries size idleOnly write ws s = ⟨.busy, [], s⟩) ∧
      (s.store.state = .idle → s.dose.lock = .closed →
        guardedWrite entries size idleOnly write ws s = ⟨.locked, [], s⟩) ∧
      (s.store.state = .idle → s.dose.lock = .unlocked → idleOnly = true →
        s.col.volState ≠ .empty ∧ s.col.volState ≠ .closed →
        guardedWrite entries size idleOnly write ws s = ⟨.volumeActive, [], s⟩) ∧
      (s.store.state = .idle → s.dose.lock = .unlocked →
        (idleOnly = true → ¬(s.col.volState ≠ .empty ∧ s.col.volState ≠ .closed)) → entries ≤ (ws.getD 0 0).toNat →
        guardedWrite entries size idleOnly write ws s = ⟨.outOfRange, [], s⟩)) := by
  refine ⟨fun hlen => if_pos hlen, fun hlen => ⟨fun hbusy => ?_, fun hidle hlock => ?_, fun hidle hlock honly hactive => ?_,
    fun hidle hlock honly hentries => ?_⟩⟩
  · rw [guardedWrite, if_neg (not_not.2 hlen), if_pos ((storeBusy_iff s).2 hbusy), refuse]
  all_goals rw [guardedWrite, if_neg (not_not.2 hlen), if_neg (by simp [storeBusy_iff, hidle])]
  · rw [if_pos hlock, refuse]
  · rw [if_neg (by simp [hlock]), if_pos ⟨honly, hactive⟩, refuse]
  · rw [if_neg (by simp [hlock]), if_neg fun h => honly h.1 h.2]
    exact if_pos hentries

/-- Past the tests of 04 R72 the table's own rule writes. -/
theorem guardedWrite_writes {entries size : Nat} {idleOnly : Bool} {write : Nat → List Slot → State → Answer}
    {i : Slot} {fs : List Slot} {s : State} (hlen : fs.length = size) (hidle : s.store.state = .idle)
    (hlock : s.dose.lock = .unlocked) (honly : idleOnly = true → s.col.volState = .empty ∨ s.col.volState = .closed)
    (hi : i.toNat < entries) : guardedWrite entries size idleOnly write (i :: fs) s = write i.toNat fs s := by
  have hactive : ¬(idleOnly = true ∧ s.col.volState ≠ .empty ∧ s.col.volState ≠ .closed) := by tauto
  rw [guardedWrite, if_neg (by simp [hlen]), if_neg (by simp [storeBusy_iff, hidle]), if_neg (by simp [hlock]),
    if_neg hactive]
  exact if_neg (Nat.not_le.2 hi)

/-- Settles O28: `guardedWrite_refuses` for each of the four tables. -/
theorem guardedWritesAreJudgedInOrder : Obligations.GuardedWritesAreJudgedInOrder := by
  intro tag ws s htakes
  refine ⟨?_, ?_, ?_, ?_⟩
  all_goals
    obtain ⟨hform, hjudged⟩ := guardedWrite_refuses (ws := ws) (s := s)
    refine ⟨fun hlen => exec_answers htakes rfl (hform hlen), fun hlen => ?_⟩
    obtain ⟨hbusy, hlocked, hactive, hindex⟩ := hjudged hlen
    exact ⟨fun h => exec_answers htakes rfl (hbusy h), fun h1 h2 => exec_answers htakes rfl (hlocked h1 h2),
      fun h1 h2 h3 h4 => exec_answers htakes rfl (hactive h1 h2 h3 h4),
      fun h1 h2 h3 h4 => exec_answers htakes rfl (hindex h1 h2 h3 h4)⟩

/-- The strobes darkened: in each, the duty of a channel that is not READY. -/
theorem darkenStrobes_eq (t : State) : darkenStrobes t = { t with lamps := { t.lamps with strobe := ⟨
    t.lamps.strobe.left.map fun z => { z with duties := z.duties.mapIdx fun c d => if channelReady t c then d else 0 },
    t.lamps.strobe.right.map fun z => { z with
      duties := z.duties.mapIdx fun c d => if channelReady t (6 + c) then d else 0 }⟩ } } := by
  have hleft : ∀ c, firstChannel .left + c = c := Nat.zero_add
  simp only [darkenStrobes, darkenStrobe, hleft]
  rfl

theorem readDuty_eq (d : Slot) : readDuty [d] = min d.toNat 255 := clampNat_zero_eq_min _ _

/-- A duty is held as written exactly when it is at most 255. -/
theorem duty_kept_iff (d : Slot) : decide (255 < d.toNat) = false ↔ [d] = [slot (readDuty [d])] := by
  rw [List.cons_eq_cons, decide_eq_false_iff_not, not_lt]
  have hd := slot_clampNat_eq_iff (lo := 0) (hi := 255) (w := d) (by decide) (by decide)
  exact ⟨fun h => ⟨hd.2 ⟨Nat.zero_le _, h⟩, rfl⟩, fun h => (hd.1 h.1).2⟩

theorem writeCap_eq (i : Nat) (d : Slot) (s : State) : writeCap i [d] s =
    ⟨if decide (255 < d.toNat) then .okClamped else .ok, [], modifyCal i ({ · with cap := min d.toNat 255 }) s⟩ := by
  rw [writeCap, writeAnswer_of_iff (duty_kept_iff d), readDuty_eq]

theorem writePreview_eq (i : Nat) (d : Slot) (s : State) : writePreview i [d] s =
    ⟨if decide (255 < d.toNat) then .okClamped else .ok, [], modifyCal i ({ · with preview := min d.toNat 255 }) s⟩ := by
  rw [writePreview, writeAnswer_of_iff (duty_kept_iff d), readDuty_eq]

theorem writeCalibration_eq (i : Nat) (r t : Slot) (s : State) : writeCalibration i [r, t] s =
    ⟨if 65535 < r.toNat || t.toInt < -256 || 255 < t.toInt then .okClamped else .ok, [], darkenStrobes (modifyCal i
      (fun c => { c with rating := min r.toNat 65535, trim := max (-256) (min t.toInt 255) }) s)⟩ := by
  have hr := slot_clampNat_eq_iff (lo := 0) (hi := 65535) (w := r) (by decide) (by decide)
  have hkept : (65535 < r.toNat || t.toInt < -256 || 255 < t.toInt) = false ↔
      [r, t] = [slot (clampNat 0 65535 r.toNat), slotInt (clampInt (-256) 255 t.toInt)] := by
    rw [List.cons_eq_cons, List.cons_eq_cons, hr, slotInt_clampInt_eq_iff]
    simp
    omega
  rw [← clampNat_zero_eq_min, ← clampInt_eq_max_min (by decide)]
  exact writeAnswer_of_iff hkept

theorem writeLimits_eq (i : Nat) (side hi lo : Slot) (s : State) : writeLimits i [side, hi, lo] s =
    ⟨if 4000000000 < side.toNat || 65535 < hi.toNat then .okClamped else .ok, [], setSettings { s.settings with
      limits := s.settings.limits.set i {
        side := min side.toNat 4000000000
        volume := if hi.toNat ≤ 65535 then hi.toNat * 2 ^ 32 + lo.toNat else 2 ^ 48 - 1 } } s⟩ := by
  have hside := slot_clampNat_eq_iff (lo := 0) (hi := 4000000000) (w := side) (by decide) (by decide)
  have hvolume : [hi, lo] = slots48 (if hi.toNat ≤ 65535 then hi.toNat * 2 ^ 32 + lo.toNat else 2 ^ 48 - 1) ↔
      hi.toNat ≤ 65535 := by
    have hlo := lo.isLt
    constructor
    · intro h
      by_contra hlarge
      rw [if_neg hlarge, slots48, List.cons_eq_cons] at h
      have := congrArg BitVec.toNat h.1
      rw [toNat_slot (by omega)] at this
      omega
    · intro h
      rw [if_pos h, slots48, show (hi.toNat * 2 ^ 32 + lo.toNat) / 2 ^ 32 = hi.toNat by omega,
        show (hi.toNat * 2 ^ 32 + lo.toNat) % 2 ^ 32 = lo.toNat by omega, slot_toNat, slot_toNat]
  have hkept : (4000000000 < side.toNat || 65535 < hi.toNat) = false ↔
      [side, hi, lo] = limitSlots (readLimits [side, hi, lo]) := by
    refine Iff.trans ?_ (List.cons_eq_cons.trans (and_congr hside hvolume)).symm
    simp
  rw [← clampNat_zero_eq_min]
  exact writeAnswer_of_iff hkept

/-- Settles O27: each write past its tests, and what it holds. -/
theorem guardedWritesHoldTheirValues : Obligations.GuardedWritesHoldTheirValues := by
  intro tag i s htakes hidle hlock
  have writes {entries size : Nat} {idleOnly : Bool} {write : Nat → List Slot → State → Answer} {fs : List Slot}
      (hlen : fs.length = size) (honly : idleOnly = true → s.col.volState = .empty ∨ s.col.volState = .closed)
      (hi : i.toNat < entries) : guardedWrite entries size idleOnly write (i :: fs) s = write i.toNat fs s :=
    guardedWrite_writes hlen hidle hlock honly hi
  refine ⟨darkenStrobes_eq, fun hi => ⟨fun r t => exec_answers htakes rfl ?_, fun d => exec_answers htakes rfl ?_,
    fun d => exec_answers htakes rfl ?_⟩, fun hi hvol side high low => exec_answers htakes rfl ?_⟩
  · exact (writes rfl (fun h => Bool.noConfusion h) (Nat.lt_succ_of_le hi)).trans (writeCalibration_eq _ _ _ _)
  · exact (writes rfl (fun h => Bool.noConfusion h) (Nat.lt_succ_of_le hi)).trans (writeCap_eq _ _ _)
  · exact (writes rfl (fun h => Bool.noConfusion h) (Nat.lt_succ_of_le hi)).trans (writePreview_eq _ _ _)
  · exact (writes rfl (fun _ => hvol) (Nat.lt_succ_of_le hi)).trans (writeLimits_eq _ _ _ _ _)

/-! ### Open tables (05 R94, 06 R117, 08 R163, 09 R173) -/

theorem openWrite_busy {entries size : Nat} {write : Nat → List Slot → State → Answer} {ws : List Slot} {s : State}
    (hlen : ws.length = size + 1) (hbusy : s.store.state ≠ .idle) :
    openWrite entries size write ws s = ⟨.busy, [], s⟩ := by
  rw [openWrite, if_neg (not_not.2 hlen), if_pos ((storeBusy_iff s).2 hbusy), refuse]

/-- With the store idle the index is judged, and then the table's own rule writes. -/
theorem openWrite_idle {entries size : Nat} {write : Nat → List Slot → State → Answer} {i : Slot} {fs : List Slot}
    {s : State} (hlen : fs.length = size) (hidle : s.store.state = .idle) :
    openWrite entries size write (i :: fs) s =
      if entries ≤ i.toNat then ⟨.outOfRange, [], s⟩ else write i.toNat fs s := by
  rw [openWrite, if_neg (by simp [hlen]), if_neg (by simp [storeBusy_iff, hidle])]
  rfl

theorem writeMotionLimit_eq (i : Nat) (v : Slot) (s : State) : writeMotionLimit i [v] s =
    ⟨if v.toNat < 100 || 20000 < v.toNat then .okClamped else .ok, [], setSettings { s.settings with
      motionLimits := s.settings.motionLimits.set i (max 100 (min v.toNat 20000)) } s⟩ := by
  have hv := slot_clampNat_eq_iff (lo := 100) (hi := 20000) (w := v) (by decide) (by decide)
  have hkept : (v.toNat < 100 || 20000 < v.toNat) = false ↔ [v] = [slot (clampNat 100 20000 v.toNat)] := by
    rw [List.cons_eq_cons, hv]
    simp
  rw [← clampNat_eq_max_min (by decide)]
  exact writeAnswer_of_iff hkept

theorem slot_eq_iff {w : Slot} {n : Nat} (h : n < 2 ^ 32) : w = BitVec.ofNat 32 n ↔ w.toNat = n := by
  rw [← BitVec.toNat_inj, BitVec.toNat_ofNat, Nat.mod_eq_of_lt h]

theorem slot_eq_zero_iff (w : Slot) : w = 0 ↔ w.toNat = 0 := slot_eq_iff (by decide)

theorem slot_eq_one_iff (w : Slot) : w = 1 ↔ w.toNat = 1 := slot_eq_iff (by decide)

theorem polarityNumbered_eq (w : Slot) :
    polarityNumbered w = if 1 < w.toNat then none else some (if w = 0 then .activeHigh else .activeLow) := by
  simp only [polarityNumbered, slot_eq_zero_iff, slot_eq_one_iff]
  grind

theorem levelNumbered_eq (w : Slot) :
    levelNumbered w = if 1 < w.toNat then none else some (if w = 0 then .urgent else .normal) := by
  simp only [levelNumbered, slot_eq_zero_iff, slot_eq_one_iff]
  grind

theorem writePolarity_eq (i : Nat) (v : Slot) (s : State) : writePolarity i [v] s =
    if 1 < v.toNat then ⟨.outOfRange, [], s⟩
    else ⟨.ok, [], setSettings { s.settings with
      polarities := s.settings.polarities.set i (if v = 0 then .activeHigh else .activeLow) } s⟩ := by
  change (match polarityNumbered v with | none => _ | some p => _) = _
  rw [polarityNumbered_eq]
  by_cases hv : 1 < v.toNat
  · rw [if_pos hv, if_pos hv]
    rfl
  · rw [if_neg hv, if_neg hv]

theorem writeLevel_eq (i : Nat) (v : Slot) (s : State) : writeLevel i [v] s =
    if 1 < v.toNat ∨ (i = 15 ∧ v = 1) then ⟨.outOfRange, [], s⟩
    else ⟨.ok, [], setSettings { s.settings with
      noticeLevels := s.settings.noticeLevels.set i (if v = 0 then .urgent else .normal) } s⟩ := by
  change (match levelNumbered v with | none => _ | some l => _) = _
  rw [levelNumbered_eq]
  by_cases hv : 1 < v.toNat
  · rw [if_pos hv, if_pos (.inl hv)]
    rfl
  · have hnormal : (if v = 0 then NoticeLevel.urgent else .normal) = .normal ↔ v = 1 := by
      simp only [slot_eq_zero_iff, slot_eq_one_iff]
      grind
    rw [if_neg hv]
    simp only [hnormal, hv, false_or]
    rfl

theorem writeTimers_eq (i : Nat) (a b c : Slot) (s : State) : writeTimers i [a, b, c] s =
    ⟨if 600 < a.toNat || b.toNat < 200 || 10000 < b.toNat || 3 < c.toNat then .okClamped else .ok, [],
      setSettings { s.settings with
        darkDelay := min a.toNat 600, frameTimeout := max 200 (min b.toNat 10000), pickRetries := min c.toNat 3 } s⟩ := by
  have ha := slot_clampNat_eq_iff (lo := 0) (hi := 600) (w := a) (by decide) (by decide)
  have hb := slot_clampNat_eq_iff (lo := 200) (hi := 10000) (w := b) (by decide) (by decide)
  have hc := slot_clampNat_eq_iff (lo := 0) (hi := 3) (w := c) (by decide) (by decide)
  have hkept : (600 < a.toNat || b.toNat < 200 || 10000 < b.toNat || 3 < c.toNat) = false ↔
      [a, b, c] = [slot (clampNat 0 600 a.toNat), slot (clampNat 200 10000 b.toNat), slot (clampNat 0 3 c.toNat)] := by
    rw [List.cons_eq_cons, List.cons_eq_cons, List.cons_eq_cons, ha, hb, hc]
    simp
    omega
  rw [← clampNat_eq_max_min (by decide), ← clampNat_zero_eq_min, ← clampNat_zero_eq_min]
  exact writeAnswer_of_iff hkept

/-! ### Recipes and geometries read back -/

/-- A quantity in its range is read back from its slot. -/
theorem clampNat_slot {lo hi n : Nat} (hlo : lo ≤ n) (hhi : n ≤ hi) (h : hi < 2 ^ 32) :
    clampNat lo hi (slot n).toNat = n := by
  rw [toNat_slot (hhi.trans_lt h), clampNat_of_mem hlo hhi]

/-- A shot in range is seven slots, and the six duties and the time clamped from them. -/
theorem shotSlots_eq {q : Shot} (h : q.law) : ∃ a b c d e f t : Slot, shotSlots q = [a, b, c, d, e, f, t] ∧
    q = ⟨[clampNat 0 255 a.toNat, clampNat 0 255 b.toNat, clampNat 0 255 c.toNat, clampNat 0 255 d.toNat,
      clampNat 0 255 e.toNat, clampNat 0 255 f.toNat], clampNat 100 50000 t.toNat⟩ := by
  obtain ⟨duties, time⟩ := q
  obtain ⟨hlen, hduties, hlow, hhigh⟩ := h
  match duties, hlen with
  | [a, b, c, d, e, f], _ =>
    have duty (n : Nat) (hn : n ∈ [a, b, c, d, e, f]) : clampNat 0 255 (slot n).toNat = n :=
      clampNat_slot (Nat.zero_le n) (hduties n hn) (by decide)
    refine ⟨slot a, slot b, slot c, slot d, slot e, slot f, slot time, rfl, ?_⟩
    rw [duty a (by simp), duty b (by simp), duty c (by simp), duty d (by simp), duty e (by simp), duty f (by simp),
      clampNat_slot hlow hhigh (by decide)]

/-- A recipe in range reads back from its slots. -/
theorem readRecipe_recipeSlots {q : Recipe} (h : q.law) : readRecipe (recipeSlots q) = q := by
  obtain ⟨count, shots, lo, hi, clip, take⟩ := q
  obtain ⟨hcount, hcounts, hlen, hshots, hlohi, hhi, hclip, htake, htakes⟩ := h
  dsimp only at hcount hcounts hlen hshots hlohi hhi hclip htake htakes
  obtain ⟨x, y, z, rfl⟩ := List.length_eq_three.1 hlen
  obtain ⟨x0, x1, x2, x3, x4, x5, x6, hx, hxs⟩ := shotSlots_eq (hshots x (by simp))
  obtain ⟨y0, y1, y2, y3, y4, y5, y6, hy, hys⟩ := shotSlots_eq (hshots y (by simp))
  obtain ⟨z0, z1, z2, z3, z4, z5, z6, hz, hzs⟩ := shotSlots_eq (hshots z (by simp))
  have hslots : recipeSlots ⟨count, [x, y, z], lo, hi, clip, take⟩ =
      [slot count, x0, x1, x2, x3, x4, x5, x6, y0, y1, y2, y3, y4, y5, y6, z0, z1, z2, z3, z4, z5, z6, slot lo, slot hi,
        slot clip, slot take] := by
    rw [recipeSlots, List.flatMap_cons, List.flatMap_cons, List.flatMap_cons, hx, hy, hz]
    rfl
  have hcarried : readRecipe (recipeSlots ⟨count, [x, y, z], lo, hi, clip, take⟩) =
      ⟨clampNat 1 3 (slot count).toNat, [x, y, z], clampNat 0 65535 (slot lo).toNat,
        max (clampNat 0 65535 (slot lo).toNat) (clampNat 0 65535 (slot hi).toNat), clampNat 0 1000 (slot clip).toNat,
        clampNat 1 7 (slot take).toNat⟩ := by
    rw [hslots, hxs, hys, hzs]
    rfl
  rw [hcarried, clampNat_slot hcount hcounts (by decide),
    clampNat_slot (Nat.zero_le lo) (hlohi.trans hhi) (by decide), clampNat_slot (Nat.zero_le hi) hhi (by decide),
    max_eq_right hlohi, clampNat_slot (Nat.zero_le clip) hclip (by decide), clampNat_slot htake htakes (by decide)]

/-- A geometry in range reads back from its slots. -/
theorem readGeometry_geometrySlots {g : Geometry} (h : g.law) : readGeometry (geometrySlots g) = g := by
  obtain ⟨w, hgt, x0, x1, y0, y1, clip⟩ := g
  obtain ⟨hw, hws, heven, hh, hhs, hx, hxw, hy, hyh, hclip⟩ := h
  dsimp only at hw hws heven hh hhs hx hxw hy hyh hclip
  have hwidth : clampNat 1024 12288 (at' (geometrySlots ⟨w, hgt, x0, x1, y0, y1, clip⟩) 0) = w :=
    clampNat_slot hw hws (by decide)
  have hheight : clampNat 1024 16384 (at' (geometrySlots ⟨w, hgt, x0, x1, y0, y1, clip⟩) 1) = hgt :=
    clampNat_slot hh hhs (by decide)
  simp only [readGeometry, hwidth, hheight, heven, Nat.sub_zero]
  simp only [geometrySlots, at', List.getD_cons_succ, List.getD_cons_zero]
  rw [clampNat_slot (Nat.zero_le x0) (by omega) (by omega), clampNat_slot (Nat.zero_le x1) (by omega) (by omega),
    clampNat_slot (Nat.zero_le y0) (by omega) (by omega), clampNat_slot (Nat.zero_le y1) (by omega) (by omega),
    clampNat_slot (Nat.zero_le clip) hclip (by decide), max_eq_right hx, max_eq_right hy]

/-- A recipe as the statement writes its clamps. -/
theorem readRecipe_eq (fs : List Slot) : readRecipe fs =
    let f (k : Nat) : Nat := at' fs k
    let near (lo hi n : Nat) : Nat := max lo (min n hi)
    let shot (k : Nat) : Shot :=
      ⟨[0, 1, 2, 3, 4, 5].map fun c => near 0 255 (f (1 + 7 * k + c)), near 100 50000 (f (7 + 7 * k))⟩
    let lo := near 0 65535 (f 22)
    { shotCount := near 1 3 (f 0), shots := [shot 0, shot 1, shot 2], lo := lo, hi := max lo (near 0 65535 (f 23))
      clipLimit := near 0 1000 (f 24), takeLimit := near 1 7 (f 25) } := by
  simp (disch := decide) only [readRecipe, clampNat_eq_max_min]
  rfl

/-- A geometry as the statement writes its clamps. -/
theorem readGeometry_eq (fs : List Slot) : readGeometry fs =
    let f (k : Nat) : Nat := at' fs k
    let near (lo hi n : Nat) : Nat := max lo (min n hi)
    let width := near 1024 12288 (f 0) / 2 * 2
    let height := near 1024 16384 (f 1)
    let x0 := min (f 2) (width - 1)
    let y0 := min (f 4) (height - 1)
    { width := width, height := height, x0 := x0, x1 := max x0 (min (f 3) (width - 1)), y0 := y0
      y1 := max y0 (min (f 5) (height - 1)), clipLevel := min (f 6) 65535 } := by
  have heven (n : Nat) : n - n % 2 = n / 2 * 2 := by omega
  simp (disch := decide) only [readGeometry, clampNat_zero_eq_min, clampNat_eq_max_min, Nat.zero_max, heven]

/-- Settles O29: each write past the tests of `openWrite`, and what it holds. -/
theorem openWritesHoldTheirValues : Obligations.OpenWritesHoldTheirValues := by
  intro tag s htakes
  refine ⟨fun w ws => exec_answers htakes rfl rfl, fun hbusy i v a b c ws => ?_, fun hidle i v a b c ws => ?_⟩
  · exact ⟨exec_answers htakes rfl (openWrite_busy rfl hbusy), exec_answers htakes rfl (openWrite_busy rfl hbusy),
      exec_answers htakes rfl (openWrite_busy rfl hbusy), exec_answers htakes rfl (openWrite_busy rfl hbusy),
      fun hlen => exec_answers htakes rfl (openWrite_busy hlen hbusy),
      fun hlen => exec_answers htakes rfl (openWrite_busy hlen hbusy)⟩
  have writes {c : Instr} {entries size : Nat} {write : Nat → List Slot → State → Answer} {fs : List Slot}
      (hexec : exec c s = .next (directive tag 0x61 (openWrite entries size write (i :: fs)) s))
      (hlen : fs.length = size) : exec c s = .next (giveReply tag 0x61
        (if entries ≤ i.toNat then ⟨.outOfRange, [], s⟩ else write i.toNat fs s)) :=
    exec_answers htakes hexec (openWrite_idle hlen hidle)
  have cons_of_getD {n : Nat} (hlen : ws.length = n + 1) (hi : ws.getD 0 0 = i) : ∃ fs, ws = i :: fs ∧ fs.length = n := by
    match ws, hlen, hi with
    | w :: fs, hlen, hi => exact ⟨fs, congrArg (· :: fs) hi, Nat.succ.inj hlen⟩
  refine ⟨(writes rfl rfl).trans ?_, (writes rfl rfl).trans ?_, (writes rfl rfl).trans ?_, (writes rfl rfl).trans ?_,
    fun hlen hi => ?_, fun hlen hi => ?_⟩
  · rw [writeMotionLimit_eq, apply_ite (giveReply tag 0x61), apply_ite Host.Outcome.next]
    rfl
  · rw [writePolarity_eq, ← ite_or, apply_ite (giveReply tag 0x61), apply_ite Host.Outcome.next]
    rfl
  · rw [writeLevel_eq, ← ite_or, apply_ite (giveReply tag 0x61), apply_ite Host.Outcome.next]
    rfl
  · rw [writeTimers_eq, apply_ite (giveReply tag 0x61), apply_ite Host.Outcome.next]
    rfl
  · obtain ⟨fs, rfl, hfs⟩ := cons_of_getD hlen hi
    have hread := readRecipe_eq fs
    refine ⟨(writes rfl hfs).trans ?_, hread ▸ readRecipe_law fs, fun q hq hslots => ?_⟩
    · have hwrite : writeRecipe i.toNat fs s =
          ⟨if decide (fs ≠ recipeSlots (readRecipe fs)) then .okClamped else .ok, [], _⟩ :=
        writeAnswer_of_iff (by simp)
      rw [hwrite, apply_ite (giveReply tag 0x61), apply_ite Host.Outcome.next, hread]
      rfl
    · exact hread.symm.trans ((congrArg readRecipe hslots).trans (readRecipe_recipeSlots hq))
  · obtain ⟨fs, rfl, hfs⟩ := cons_of_getD hlen hi
    have hread := readGeometry_eq fs
    refine ⟨(writes rfl hfs).trans ?_, hread ▸ readGeometry_law fs, fun q hq hslots => ?_⟩
    · have hwrite : writeGeometry i.toNat fs s =
          ⟨if decide (fs ≠ geometrySlots (readGeometry fs)) then .okClamped else .ok, [], _⟩ :=
        writeAnswer_of_iff (by simp)
      have hport : portNumbered i.toNat = if i = 0 then .left else .right := by
        simp only [portNumbered, slot_eq_zero_iff]
      rw [hwrite, apply_ite (giveReply tag 0x61), apply_ite Host.Outcome.next, hread, hport]
      rfl
    · exact hread.symm.trans ((congrArg readGeometry hslots).trans (readGeometry_geometrySlots hq))

end Sys2Proof.Machine
end

section
/-! PROOFS of the family `other`: the link and its frames (08), resets and start-up (10), the timers and the lamp
channels (03, 07). -/
namespace Sys2Proof.Machine

/-! ### Frames that carry no directive (08 R156, 11 R182) -/

/-- The slots of bytes are read four at a time, so none are read of a number of bytes that is no multiple of 4. -/
theorem bytesSlots_of_ragged : ∀ (bytes : List Byte), bytes.length % 4 ≠ 0 → bytesSlots bytes = none
  | [], h => absurd rfl h
  | [_], _ => rfl
  | [_, _], _ => rfl
  | [_, _, _], _ => rfl
  | a :: b :: c :: d :: rest, h => by
    have hrest : rest.length % 4 ≠ 0 := by
      simp only [List.length_cons] at h
      omega
    rw [bytesSlots, bytesSlots_of_ragged rest hrest]
    rfl

/-- A frame of the envelope's shape with a wrong kind, length or CRC is bad. -/
theorem decodeFrame_bad {kind tag l0 l1 : Byte} {payload crc : List Byte} (hcrc : crc.length = 4)
    (hbad : kind ≠ 0x01 ∨ 2048 < l1.toNat * 256 + l0.toNat ∨ payload.length ≠ l1.toNat * 256 + l0.toNat ∨
      payload.length % 4 ≠ 0 ∨ crc ≠ slotBytes (crc32 ([kind, tag, l0, l1] ++ payload))) :
    decodeFrame ([kind, tag, l0, l1] ++ payload ++ crc) = .badFrame kind := by
  have hlen : (l1 ++ l0 : BitVec 16).toNat = l1.toNat * 256 + l0.toNat := by
    rw [BitVec.toNat_append, ← Nat.shiftLeft_add_eq_or_of_lt l0.isLt, Nat.shiftLeft_eq]
  simp only [List.cons_append, List.nil_append, decodeFrame, hlen] at hbad ⊢
  by_cases hpayload : payload.length = l1.toNat * 256 + l0.toNat
  · rw [← hpayload, List.take_left, List.drop_left]
    by_cases hragged : payload.length % 4 = 0
    · exact if_neg (by grind)
    · rw [bytesSlots_of_ragged payload hragged, ite_self]
  · refine if_neg fun hgood => hpayload ?_
    have hsize := hgood.2.1
    rw [List.length_append, hcrc] at hsize
    omega

/-! ### The link (08) -/

/-- Settles O33. -/
theorem framesThatCarryNoDirective : Obligations.FramesThatCarryNoDirective := by
  intro kind s
  refine ⟨fun hup => ?_, fun hdown => ?_, rfl, rfl, fun tag l0 l1 payload crc => decodeFrame_bad⟩
  · exact congrArg Host.Outcome.next (if_pos hup)
  · exact congrArg Host.Outcome.next (if_neg (by simp [hdown]))

/-! ### The arbiter (08 R166, 09 R171) -/

theorem frameBoundary_up {s : State} (hup : s.link.up = true) (h : s.link.resetWaiting = false ∨ s.link.replies ≠ []) :
    frameBoundary s = takeNext s := by
  rw [frameBoundary, if_neg (by grind), if_pos hup]

/-- The selection: the lowest eligible URGENT source, or the lowest eligible one when none is URGENT. -/
theorem selection_eq_some {s : State} {i : Nat} (hi : i < 16) (heligible : eligible s i = true)
    (hurgent : noticeLevel s i = .urgent ∨ ∀ j, j < 16 → eligible s j = true → noticeLevel s j ≠ .urgent)
    (hlowest : ∀ j, j < i → eligible s j = true → noticeLevel s j ≠ noticeLevel s i) : selection s = some i := by
  rcases hurgent with hurgent | hnone
  · have hfound : ((List.range 16).find? fun i => eligible s i && (noticeLevel s i == .urgent)) = some i := by
      refine List.find?_range_eq_some.2 ⟨by simp [heligible, hurgent], List.mem_range.2 hi, fun j hj => ?_⟩
      have := hlowest j hj
      grind
    rw [selection, hfound, Option.some_or]
  · have hno : ((List.range 16).find? fun i => eligible s i && (noticeLevel s i == .urgent)) = none := by
      refine List.find?_eq_none.2 fun j hj => ?_
      have := hnone j (List.mem_range.1 hj)
      grind
    have hnormal (j : Nat) (hj : j < 16) (he : eligible s j = true) : noticeLevel s j = .normal := by
      have := hnone j hj he
      cases hl : noticeLevel s j <;> simp_all
    have hfound : ((List.range 16).find? fun i => eligible s i) = some i := by
      refine List.find?_range_eq_some.2 ⟨heligible, List.mem_range.2 hi, fun j hj => ?_⟩
      by_contra he
      have he : eligible s j = true := by simpa using he
      exact hlowest j hj he ((hnormal j (hj.trans hi) he).trans (hnormal i hi heligible).symm)
    rw [selection, hno, Option.none_or, hfound]

/-- No notice is selected where no source is eligible. -/
theorem selection_eq_none {s : State} (h : ∀ i, i < 16 → eligible s i = false) : selection s = none := by
  have hnone (p : Nat → Bool) : ((List.range 16).find? fun i => eligible s i && p i) = none :=
    List.find?_eq_none.2 fun j hj => by simp [h j (List.mem_range.1 hj)]
  have hnone' := hnone fun _ => true
  simp only [Bool.and_true] at hnone'
  rw [selection, hnone, hnone', Option.none_or]

/-- The burst taken: of the port that offers one, the other offering none or having been served last. -/
theorem burstPort_eq_some {s : State} {b : Side} {head : Burst} {rest : List Burst} (h : (s.port b).queue = head :: rest)
    (hother : (s.port b.other).queue = [] ∨ s.link.lastServed = b.other) : burstPort s = some b := by
  cases b with
  | left =>
    change s.ports.left.queue = head :: rest at h
    change s.ports.right.queue = [] ∨ s.link.lastServed = .right at hother
    rw [burstPort, h]
    cases hright : s.ports.right.queue with
    | nil => rfl
    | cons x xs =>
      have hserved : s.link.lastServed = .right := hother.resolve_left (by simp [hright])
      simp only [hserved]
      rfl
  | right =>
    change s.ports.right.queue = head :: rest at h
    change s.ports.left.queue = [] ∨ s.link.lastServed = .left at hother
    rw [burstPort, h]
    cases hleft : s.ports.left.queue with
    | nil => rfl
    | cons x xs =>
      have hserved : s.link.lastServed = .left := hother.resolve_left (by simp [hleft])
      simp only [hserved]
      rfl

theorem burstPort_eq_none {s : State} (h : ∀ b, (s.port b).queue = []) : burstPort s = none := by
  rw [burstPort, show s.ports.left.queue = [] from h .left, show s.ports.right.queue = [] from h .right]

theorem takeNext_notice {s : State} {i : Nat} (hreplies : s.link.replies = []) (hselected : selection s = some i) :
    takeNext s = markSent i (send (some (.notice (noticeOf s i))) s) := by
  simp only [takeNext, hreplies, hselected]

theorem takeNext_burst {s : State} {b : Side} (hreplies : s.link.replies = []) (hselected : selection s = none)
    (hport : burstPort s = some b) : takeNext s = takeBurst b s := by
  simp only [takeNext, hreplies, hselected, hport]

theorem takeNext_none {s : State} (hreplies : s.link.replies = []) (hselected : selection s = none)
    (hport : burstPort s = none) : takeNext s = send none s := by
  simp only [takeNext, hreplies, hselected, hport]

/-- Settles O35. -/
theorem theArbiterChoosesTheNextFrame : Obligations.TheArbiterChoosesTheNextFrame := by
  refine ⟨fun s h => idleBoundary_none h, fun s hup hidle hwaits => ?_, fun s hdown hwaits => ?_,
    fun s hup => ⟨fun r rest hreplies => ?_, fun hreplies hwaits => ?_⟩⟩
  · exact congrArg Host.Outcome.next ((frameBoundary_up hup hwaits).trans (if_pos ⟨hup, hidle⟩).symm)
  · exact congrArg Host.Outcome.next ((if_neg (by grind)).trans (if_neg (by simp [hdown])))
  · refine congrArg Host.Outcome.next ((frameBoundary_up hup (.inr (by simp [hreplies]))).trans ?_)
    rw [takeNext, hreplies]
  have hnext {t : State} (h : takeNext s = t) : exec .upstreamFrameSent s = .next t :=
    congrArg Host.Outcome.next ((frameBoundary_up hup (.inl hwaits)).trans h)
  refine ⟨fun i hi heligible hurgent hlowest => hnext ?_, fun hnone => ⟨fun b head rest hqueue hother => hnext ?_,
    fun hempty => hnext ?_⟩⟩
  · exact takeNext_notice hreplies (selection_eq_some hi heligible hurgent hlowest)
  · rw [takeNext_burst hreplies (selection_eq_none hnone) (burstPort_eq_some hqueue hother), takeBurst, hqueue]
    rfl
  · exact takeNext_none hreplies (selection_eq_none hnone) (burstPort_eq_none hempty)

/-! ### Resets and start-up (10) -/

/-- Settles O36. -/
theorem resetsPutEveryBlockAtItsResetValues : Obligations.ResetsPutEveryBlockAtItsResetValues := by
  intro s
  have made (hstart : s.start ≠ .held) (cause : ResetCause) : beginReset cause s = resetAll cause s := if_neg hstart
  have valve (cause : ResetCause) : (cause != .powerOn && s.seq.outputs.vacuum) =
      if cause = .powerOn then false else s.seq.outputs.vacuum := by cases cause <;> rfl
  have reset (hstart : s.start ≠ .held) (cause : ResetCause) : beginReset cause s = { State.reset with
      pending := s.pending
      seq := .afterReset (if cause = .powerOn then false else s.seq.outputs.vacuum)
      link := .afterReset cause
      store := { s.store with state := .idle, elapsed := 0, torn := s.store.torn || s.store.state == .storing }
      start := .held
      pins := s.pins } := by
    rw [made hstart, resetAll, valve]
  refine ⟨fun hstart => ⟨congrArg _ (reset hstart _), congrArg _ (reset hstart _), congrArg _ (reset hstart _),
    fun hwaits hclear => ?_, fun hwaits hreplies => ?_⟩, fun hnone => ?_, fun hstart => ⟨?_, ?_, ?_⟩⟩
  · exact congrArg _ ((if_pos ⟨hwaits, hclear⟩).trans (reset hstart _))
  · exact congrArg _ ((if_pos ⟨hwaits, hreplies⟩).trans (reset hstart _))
  · exact congrArg _ (if_neg (by grind))
  · exact congrArg _ (if_pos hstart)
  · exact congrArg _ (if_pos hstart)
  · exact congrArg _ (if_pos hstart)

theorem imageValid_iff (q : Store) : imageValid q = true ↔ q.torn = false ∧ q.crc = settingsCrc q.image := by
  simp [imageValid]

/-- Settles O37: each end by what it awaits and by whether the image is valid. -/
theorem startUpStoresAndRecalls : Obligations.StartUpStoresAndRecalls := by
  intro s
  have invalid (h : ¬(s.store.torn = false ∧ s.store.crc = settingsCrc s.store.image)) : imageValid s.store = false :=
    Bool.eq_false_iff.2 fun hv => h ((imageValid_iff _).1 hv)
  refine ⟨fun hheld => congrArg _ (if_pos hheld), fun hheld => congrArg _ (if_neg hheld),
    fun hstart hlock => ⟨fun hvalid => ?_, fun hvalid => ?_⟩, fun hstart hlock => ?_, fun hstart => congrArg _ (if_neg hstart),
    fun hstoring => ⟨congrArg _ (if_pos hstoring), congrArg _ (if_pos hstoring)⟩,
    fun hstoring ok => congrArg _ (if_neg hstoring), fun hstart hrecalling => ⟨fun hvalid => ?_, fun hvalid => ?_⟩,
    fun hrecalling => congrArg _ (if_neg fun h => hrecalling h.2)⟩
  · refine congrArg Host.Outcome.next ((if_pos hstart).trans ?_)
    rw [(imageValid_iff _).2 hvalid]
    exact if_neg fun h => Bool.noConfusion (hlock.symm.trans h)
  · refine congrArg Host.Outcome.next ((if_pos hstart).trans ?_)
    rw [invalid hvalid]
    exact if_neg fun h => Bool.noConfusion (hlock.symm.trans h)
  · refine congrArg Host.Outcome.next ((if_pos hstart).trans ?_)
    have hlink : { s.link with up := true, lock := true } = { s.link with up := true } := by
      rw [← hlock]
    by_cases hvalid : s.store.torn = false ∧ s.store.crc = settingsCrc s.store.image
    · rw [(imageValid_iff _).2 hvalid, if_pos hvalid, if_pos hvalid, ← hlink]
      exact if_pos hlock
    · rw [invalid hvalid, if_neg hvalid, if_neg hvalid, ← hlink]
      exact if_pos hlock
  · refine congrArg Host.Outcome.next ((if_pos ⟨hstart, hrecalling⟩).trans ?_)
    rw [(imageValid_iff _).2 hvalid]
    rfl
  · refine congrArg Host.Outcome.next ((if_pos ⟨hstart, hrecalling⟩).trans ?_)
    rw [invalid hvalid]
    rfl

/-! ### Timers -/

/-- Settles O48: neither timer needs the arbiter. -/
theorem darkDelayAndVolumeClockRunOut : Obligations.DarkDelayAndVolumeClockRunOut := by
  intro s hstart
  refine ⟨congrArg Host.Outcome.next ((if_neg hstart).trans ?_), congrArg Host.Outcome.next (if_neg hstart)⟩
  rw [darkExpiry]
  cases s.lamps.darkLeft <;> rfl
end Sys2Proof.Machine
end

section
/-! PROOFS of the family `other`: the ports' frames (06), the exposure channels' outcomes (05) and the lamp channels
(03). -/
namespace Sys2Proof.Machine

/-! ### Events, and parts of the state replaced twice -/

/-- An event that is taken: what it does, and the boundary of an idle transmitter. -/
theorem exec_event {c : Instr} {s u t : State} {f : State → State} (hstart : u.start ≠ .held)
    (hexec : exec c s = .next (event u f)) (hf : f u = t) : exec c s = .next (idleBoundary t) := by
  rw [hexec, event, unlessHeld, if_neg hstart, hf]

@[simp] theorem State.setChan_setChan (s : State) (b : Side) (c d : Channel) :
    (s.setChan b c).setChan b d = s.setChan b d := by
  cases b <;> rfl

@[simp] theorem State.setPort_setPort (s : State) (b : Side) (p q : Port) :
    (s.setPort b p).setPort b q = s.setPort b q := by
  cases b <;> rfl

theorem State.setChan_chan (s : State) (b : Side) : s.setChan b (s.chan b) = s := by
  cases b <;> rfl

theorem State.setPort_port (s : State) (b : Side) : s.setPort b (s.port b) = s := by
  cases b <;> rfl

/-- A settling does not look at the channels. -/
theorem settle_setChan (x : Target) (a : TState) (s : State) (b : Side) (c : Channel) :
    settle x a (s.setChan b c) = (settle x a s).setChan b c := by
  have hmark (u : State) : markSettledHere x (u.setChan b c) = (markSettledHere x u).setChan b c := by
    have hview (d : Side) : inView (u.setChan b c) d = inView u d :=
      inView_congr (s := u) (t := u.setChan b c) rfl rfl rfl rfl rfl d
    simp only [markSettledHere, apply_ite (fun v : State => v.setChan b c), hview]
    rfl
  have hdrop (u : State) : dropRetake x (u.setChan b c) = (dropRetake x u).setChan b c := by cases x <;> rfl
  have hchange (u : State) : changeState x .pending a (u.setChan b c) = (changeState x .pending a u).setChan b c := by
    cases x with
    | side => rfl
    | panel f n =>
      simp only [changeState, moveCount, modifyFields]
      split <;> rfl
  have hpending : isPending (s.setChan b c) x = isPending s x := rfl
  simp only [settle, hpending, hchange, hdrop, hmark]
  split <;> rfl

/-- A change of tally fields leaves every target's class. -/
theorem classOf_modifyFields (x y : Target) (g : TallyFields → TallyFields) (s : State) :
    classOf (modifyFields x g s) y = classOf s y := by
  cases x with
  | side i f =>
    cases y with
    | side j e =>
      simp only [classOf, leafAt, modifyFields, List.getD_eq_getElem?_getD, List.getElem?_modify]
      cases s.col.leaves[j]? with
      | none => rfl
      | some l =>
        cases f <;> by_cases hij : i = j <;> simp [hij, LeafRecord.setFace]
    | panel => rfl
  | panel a n =>
    cases y with
    | side j e =>
      by_cases hn : n = 0 <;> simp only [classOf, leafAt, modifyFields, hn, if_true, if_false]
    | panel m k =>
      by_cases hn : n = 0
      · simp only [modifyFields, if_pos hn]
      · simp only [classOf, panelsOf, modifyFields, if_neg hn, List.getElem?_modify]
        by_cases ham : a = m
        · subst ham
          simp only [if_true]
          cases s.col.foldouts[a]? with
          | none => rfl
          | some e =>
            cases e with
            | none => rfl
            | some ps =>
              simp only [Option.map_some, Option.map_eq_map, Option.join_some, Option.getD_some, List.getElem?_modify]
              cases ps[k - 1]? <;> by_cases hnk : n - 1 = k - 1 <;> simp [hnk]
        · simp [ham]

theorem recipeOf_modifyFields (x y : Target) (g : TallyFields → TallyFields) (s : State) :
    recipeOf (modifyFields x g s) y = recipeOf s y := by
  have hsettings : (modifyFields x g s).settings = s.settings := by rw [modifyFields_rest]
  rw [recipeOf, recipeOf, classOf_modifyFields, hsettings]

theorem chan_modifyFields (x : Target) (g : TallyFields → TallyFields) (s : State) (b : Side) :
    (modifyFields x g s).chan b = s.chan b := by
  rw [modifyFields_rest]
  rfl

theorem modifyFields_setChan (x : Target) (g : TallyFields → TallyFields) (s : State) (b : Side) (c : Channel) :
    modifyFields x g (s.setChan b c) = (modifyFields x g s).setChan b c := by
  cases x with
  | side => rfl
  | panel f n =>
    simp only [modifyFields]
    split <;> rfl

/-! ### What a channel does with its shot's outcome (05 R102 to R108) -/

/-- A channel whose shot has ended, at a state of rest. -/
def Channel.ended (c : Channel) (st : ChanState) : Channel :=
  { c with state := st, gate := none, kept := none, timeout := none }

theorem settleChannel_eq {b : Side} {s : State} {x : Target} (a : TState) (htarget : (s.chan b).target = some x) :
    settleChannel b a s = (settle x a s).setChan b ((s.chan b).ended .done) := by
  rw [settleChannel, htarget]
  rfl

/-- A rejection with takes left: the shot is owed again. -/
theorem rejectShot_again {b : Side} {s : State} {x : Target} {k : ShotCopy} (why : Rejection)
    (htarget : (s.chan b).target = some x) (hcopy : (s.chan b).copy = some k) (htakes : (s.chan b).takes < k.takeLimit) :
    rejectShot b why s = s.setChan b ((s.chan b).ended .idle) := by
  rw [rejectShot, htarget, hcopy]
  exact if_pos htakes

/-- A rejection after the last take: the target is REJECTED. -/
theorem rejectShot_last {b : Side} {s : State} {x : Target} {k : ShotCopy} (why : Rejection)
    (htarget : (s.chan b).target = some x) (hcopy : (s.chan b).copy = some k) (htakes : k.takeLimit ≤ (s.chan b).takes) :
    rejectShot b why s = raise .sideRejected (targetSlots x ++ [slot (s.chan b).shot, slot why.num])
      ((settle x .rejected s).setChan b ((s.chan b).ended .done)) := by
  rw [rejectShot, htarget, hcopy, ← settleChannel_eq _ htarget]
  exact if_neg htakes.not_gt

/-- An accepted frame: the stamps, the next shot, and after the last one CAPTURED. -/
theorem acceptShot_eq {b : Side} {s : State} {x : Target} (htarget : (s.chan b).target = some x) :
    acceptShot b s = if (recipeOf s x).shotCount < (s.chan b).shot + 1
      then (settle x .captured (reportAccepted x s)).setChan b
        { (s.chan b).ended .done with shot := (s.chan b).shot + 1, takes := 0 }
      else (reportAccepted x s).setChan b { (s.chan b).ended .idle with shot := (s.chan b).shot + 1, takes := 0 } := by
  have hchan : (reportAccepted x s).chan b = s.chan b := chan_modifyFields ..
  have hrecipe (c : Channel) : recipeOf ((reportAccepted x s).setChan b c) x = recipeOf s x := recipeOf_modifyFields ..
  simp only [acceptShot, htarget, betweenShots, hchan, State.chan_setChan, State.setChan_setChan, hrecipe]
  rw [settleChannel_eq .captured (x := x) (by rw [State.chan_setChan]), settle_setChan]
  simp only [State.chan_setChan, State.setChan_setChan, Channel.ended, htarget]

/-- The rejections' verdicts carry their numbers. -/
theorem rejection_eq {v : Verdict} (hgood : v ≠ .good) (hlate : v ≠ .late) (habandoned : v ≠ .abandoned) :
    ∃ why, v.rejection = some why ∧ why.num = v.num := by
  cases v <;> first | contradiction | exact ⟨_, rfl, rfl⟩

theorem takeVerdict_none {b : Side} {v : Verdict} {s : State}
    (h : v = .late ∨ v = .abandoned ∨ ((s.chan b).state ≠ .awaiting ∧ (s.chan b).state ≠ .firing)) :
    takeVerdict b v s = s := by
  rw [takeVerdict]
  by_cases hv : v = .late ∨ v = .abandoned
  · exact if_pos hv
  · rw [if_neg hv]
    obtain ⟨hawaiting, hfiring⟩ := (h.resolve_left fun hl => hv (.inl hl)).resolve_left fun ha => hv (.inr ha)
    cases hstate : (s.chan b).state with
    | awaiting => exact absurd hstate hawaiting
    | firing => exact absurd hstate hfiring
    | idle | arming | gating | done => rfl

theorem takeVerdict_awaiting {b : Side} {v : Verdict} {s : State} (hlate : v ≠ .late) (habandoned : v ≠ .abandoned)
    (hstate : (s.chan b).state = .awaiting) :
    takeVerdict b v s = judgeShot b v (s.setChan b { s.chan b with timeout := none }) := by
  rw [takeVerdict, if_neg (by tauto), hstate]

/-- Settles O47. -/
theorem verdictsAtTheChannel : Obligations.VerdictsAtTheChannel := by
  intro b v s
  refine ⟨takeVerdict_none, fun hlate habandoned hstate => ?_, fun x k hstate htarget hcopy => ?_⟩
  · rw [takeVerdict, if_neg (by tauto)]
    simp only [hstate]
  have hstamp : reportAccepted x s = modifyFields x (fun q => { q with
      firstTake := some (q.firstTake.getD s.tally.clock), lastTake := some s.tally.clock }) s := by
    refine congrArg (modifyFields x · s) (funext fun q => ?_)
    cases q.firstTake <;> rfl
  have hstamps (c : Channel) : reportAccepted x (s.setChan b c) = (reportAccepted x s).setChan b c :=
    modifyFields_setChan ..
  have accepted (hv : v = .good) : takeVerdict b v s = acceptShot b (s.setChan b { s.chan b with timeout := none }) := by
    subst hv
    exact takeVerdict_awaiting nofun nofun hstate
  have rejected (hgood : v ≠ .good) (hlate : v ≠ .late) (habandoned : v ≠ .abandoned) : ∃ why, why.num = v.num ∧
      takeVerdict b v s = rejectShot b why (s.setChan b { s.chan b with timeout := none }) := by
    obtain ⟨why, hwhy, hnum⟩ := rejection_eq hgood hlate habandoned
    refine ⟨why, hnum, ?_⟩
    rw [takeVerdict_awaiting hlate habandoned hstate, judgeShot, hwhy]
  have hchan (c : Channel) : (s.setChan b c).chan b = c := State.chan_setChan ..
  have hrecipe (c : Channel) : recipeOf (s.setChan b c) x = recipeOf s x := rfl
  refine ⟨fun hv hshot => ?_, fun hv hshot => ?_, fun hgood hlate habandoned htakes => ?_,
    fun hgood hlate habandoned htakes => ?_⟩
  · rw [accepted hv, acceptShot_eq (x := x) (by rw [hchan, htarget]), hchan, hrecipe,
      if_neg (Nat.not_lt.2 hshot), hstamps, hstamp,
      State.setChan_setChan]
    rfl
  · rw [accepted hv, acceptShot_eq (x := x) (by rw [hchan, htarget]), hchan, hrecipe,
      if_pos (Nat.lt_succ_of_le hshot), hstamps,
      settle_setChan, hstamp, State.setChan_setChan]
    rfl
  · obtain ⟨why, hnum, hwhy⟩ := rejected hgood hlate habandoned
    rw [hwhy, rejectShot_again why (x := x) (k := k) (by rw [hchan, htarget]) (by rw [hchan, hcopy])
      (by rw [hchan]; exact htakes),
      hchan, State.setChan_setChan]
    rfl
  · obtain ⟨why, hnum, hwhy⟩ := rejected hgood hlate habandoned
    rw [hwhy, rejectShot_last why (x := x) (k := k) (by rw [hchan, htarget]) (by rw [hchan, hcopy])
      (by rw [hchan]; exact htakes),
      hchan, settle_setChan, State.setChan_setChan, hnum]
    rfl

/-! ### The end of a strobe and the frame timeout (05 R101, R106) -/

theorem endStrobe_none {b : Side} {s : State} (h : s.lamps.strobe.get b = none) : endStrobe b s = s := by
  rw [endStrobe, if_neg (by simp [h])]

theorem endStrobe_awaits {b : Side} {s : State} {z : Strobe} (hstrobe : s.lamps.strobe.get b = some z)
    (hstate : (s.chan b).state = .firing) (hkept : (s.chan b).kept = none) :
    endStrobe b s = (setStrobe b none s).setChan b { s.chan b with
      state := .awaiting, trigger := false, timeout := some s.settings.frameTimeout } := by
  have hchan : (setStrobe b none s).chan b = s.chan b := rfl
  rw [endStrobe, if_pos (by simp [hstrobe]), shotDone, hchan, if_pos hstate]
  simp only [hkept]
  rfl

theorem expireFrame_none {b : Side} {s : State} (h : (s.chan b).state ≠ .awaiting ∨ (s.chan b).timeout = none) :
    expireFrame b s = s := by
  unfold expireFrame
  rcases h with hstate | htimeout
  · cases hs : (s.chan b).state with
    | awaiting => exact absurd hs hstate
    | idle | arming | gating | firing | done => simp only [hs]
  · cases hs : (s.chan b).state <;> simp only [hs, htimeout]

theorem expireFrame_missing {b : Side} {s : State} {n : Nat} {x : Target} (hstate : (s.chan b).state = .awaiting)
    (htimeout : (s.chan b).timeout = some n) (htarget : (s.chan b).target = some x) :
    expireFrame b s = rejectShot b .missing (raise .frameMissing ([slot (sideNum b)] ++ targetSlots x ++
      [slot (s.chan b).shot]) (s.setPort b ((s.port b).mapArmed .expire))) := by
  simp only [expireFrame, hstate, htimeout, htarget]

/-- Settles O46. -/
theorem shotsEndOrGoMissing : Obligations.ShotsEndOrGoMissing := by
  intro b s hstart
  refine ⟨fun hstrobe => exec_event hstart rfl (congrArg react (endStrobe_none hstrobe)),
    fun z hstrobe hstate hkept => exec_event hstart rfl (congrArg react (endStrobe_awaits hstrobe hstate hkept)),
    fun hnone => exec_event hstart rfl (congrArg react (expireFrame_none hnone)),
    fun n x k hstate htimeout htarget hcopy => ⟨fun htakes => exec_event hstart rfl (congrArg react ?_),
      fun htakes => exec_event hstart rfl (congrArg react ?_)⟩⟩
  · exact (expireFrame_missing hstate htimeout htarget).trans (rejectShot_again .missing htarget hcopy htakes)
  · exact (expireFrame_missing hstate htimeout htarget).trans (rejectShot_last .missing htarget hcopy htakes)

/-! ### Frames (06 R121 to R130) -/

theorem closeFrame_none {b : Side} {s : State} (cause : EndCause) (h : (s.port b).state ≠ .receiving) :
    closeFrame b cause s = (s, none) := by
  unfold closeFrame
  cases hs : (s.port b).state with
  | receiving => exact absurd hs h
  | idle | armed => simp only [hs]

/-- The end of a frame with no header waiting: the port goes IDLE. -/
theorem closeFrame_idle {b : Side} {s : State} {h : Header} {f : Frame} (cause : EndCause)
    (hstate : (s.port b).state = .receiving) (harmed : (s.port b).armed = some h) (hframe : (s.port b).frame = some f)
    (hwaiting : (s.port b).waiting = none) : closeFrame b cause s = (s.setPort b { s.port b with
      state := .idle, armed := none, frame := none, queue := (s.port b).queue ++ [.trailer (trailerOf b h f cause)] },
      some (verdictOf h f)) := by
  simp only [closeFrame, hstate, harmed, hframe, hwaiting, Port.release, Port.enqueue]
  rfl

/-- The end of a frame with a header waiting: it becomes the armed header, and its channel goes on to GATING. -/
theorem closeFrame_armed {b : Side} {s : State} {h w : Header} {f : Frame} (cause : EndCause)
    (hstate : (s.port b).state = .receiving) (harmed : (s.port b).armed = some h) (hframe : (s.port b).frame = some f)
    (hwaiting : (s.port b).waiting = some w) (harming : (s.chan b).state = .arming) :
    closeFrame b cause s = ((s.setPort b { s.port b with
      state := .armed, armed := some w, waiting := none, frame := none
      queue := (s.port b).queue ++ [.trailer (trailerOf b h f cause)] }).setChan b { s.chan b with state := .gating },
      some (verdictOf h f)) := by
  simp only [closeFrame, hstate, harmed, hframe, hwaiting, Port.release, Port.enqueue, harming]
  rfl

theorem endFrame_of_none {b : Side} {s t : State} {cause : EndCause} (h : closeFrame b cause s = (t, none)) :
    endFrame b cause s = t := by
  rw [endFrame, h]

theorem endFrame_of_some {b : Side} {s t : State} {cause : EndCause} {v : Verdict}
    (h : closeFrame b cause s = (t, some v)) : endFrame b cause s = takeVerdict b v t := by
  rw [endFrame, h]

/-- Settles O53. -/
theorem framesEnd : Obligations.FramesEnd := by
  intro b s hstart
  have ends {cause : EndCause} {t : State} {c : Instr}
      (hexec : exec c s = .next (event s fun s => react (endFrame b cause s))) (h : endFrame b cause s = t) :
      exec c s = .next (idleBoundary (react t)) := exec_event hstart hexec (congrArg react h)
  refine ⟨fun hstate => ⟨ends rfl (endFrame_of_none (closeFrame_none _ hstate)),
    ends rfl (endFrame_of_none (closeFrame_none _ hstate))⟩, fun h f hstate harmed hframe =>
    ⟨fun hwaiting => ⟨ends rfl ?_, ends rfl ?_⟩, fun w hwaiting harming => ⟨ends rfl ?_, ends rfl ?_⟩⟩⟩
  · exact endFrame_of_some (closeFrame_idle .frameEnd hstate harmed hframe hwaiting)
  · exact endFrame_of_some (closeFrame_idle .stall hstate harmed hframe hwaiting)
  · exact endFrame_of_some (closeFrame_armed .frameEnd hstate harmed hframe hwaiting harming)
  · exact endFrame_of_some (closeFrame_armed .stall hstate harmed hframe hwaiting harming)

theorem startFrame_unsolicited {b : Side} {s : State} (harmed : (s.port b).armed = none) : startFrame b s =
    s.setPort b { s.port b with unsolicited := countUp 65535 (s.port b).unsolicited } := by
  simp only [startFrame, harmed]

theorem startFrame_refused {b : Side} {s : State} {h : Header} (harmed : (s.port b).armed = some h)
    (hmarkers : 2 < markersQueued (s.port b)) : startFrame b s = raise .lineOverrun [slot (sideNum b), 0, 0, 1]
      (s.setPort b { s.port b with refused := countUp 65535 (s.port b).refused }) := by
  have hfull : ¬markersQueued (s.port b) + 2 ≤ 4 := by omega
  simp only [startFrame, harmed, if_neg hfull]

theorem startFrame_begins {b : Side} {s : State} {h : Header} (harmed : (s.port b).armed = some h)
    (hmarkers : markersQueued (s.port b) ≤ 2) : startFrame b s = beginFrame b h s := by
  have hroom : markersQueued (s.port b) + 2 ≤ 4 := by omega
  simp only [startFrame, harmed, if_pos hroom]

theorem frameStarts_of_none {b : Side} {s t : State} (h : closeFrame b .nextStart s = (t, none)) :
    frameStarts b s = startFrame b t := by
  rw [frameStarts, h]

theorem frameStarts_of_some {b : Side} {s t : State} {v : Verdict} (h : closeFrame b .nextStart s = (t, some v)) :
    frameStarts b s = takeVerdict b v (startFrame b t) := by
  rw [frameStarts, h]

/-- The ports and the channels are apart. -/
theorem State.setChan_setPort (s : State) (b d : Side) (p : Port) (c : Channel) :
    (s.setPort b p).setChan d c = (s.setChan d c).setPort b p := rfl

/-- Settles O51: with a frame in reception, its end (`closeFrame`) and then the start afresh (`startFrame`). -/
theorem frameStarts_settled : Obligations.FrameStarts := by
  intro b s hstart
  have starts {t : State} (h : frameStarts b s = t) : exec (.frameStart b) s = .next (idleBoundary (react t)) :=
    exec_event hstart rfl (congrArg react h)
  refine ⟨fun hstate harmed => starts ?_, fun h hstate harmed => ⟨fun hmarkers => starts ?_, fun hmarkers => starts ?_⟩,
    fun h f hstate harmed hframe => ⟨fun hwaiting => starts ?_, fun w hwaiting harming => ?_⟩⟩
  · exact (frameStarts_of_none (closeFrame_none _ hstate)).trans (startFrame_unsolicited harmed)
  · exact (frameStarts_of_none (closeFrame_none _ (by simp [hstate]))).trans (startFrame_refused harmed hmarkers)
  · exact (frameStarts_of_none (closeFrame_none _ (by simp [hstate]))).trans (startFrame_begins harmed hmarkers)
  · rw [frameStarts_of_some (closeFrame_idle .nextStart hstate harmed hframe hwaiting),
      startFrame_unsolicited (by rw [State.port_setPort]), State.port_setPort, State.setPort_setPort]
    rfl
  have hclose := frameStarts_of_some (closeFrame_armed .nextStart hstate harmed hframe hwaiting harming)
  have hmarkers : markersQueued { s.port b with
      state := .armed, armed := some w, waiting := none, frame := none
      queue := (s.port b).queue ++ [.trailer (trailerOf b h f .nextStart)] } = markersQueued (s.port b) + 1 :=
    markersQueued_enqueue (s.port b) (.trailer (trailerOf b h f .nextStart))
  rw [State.setChan_setPort] at hclose
  refine ⟨fun hfull => starts (hclose.trans ?_), fun hroom => starts (hclose.trans ?_)⟩
  · rw [startFrame_refused (h := w) (by rw [State.port_setPort]) (by rw [State.port_setPort, hmarkers]; omega),
      State.port_setPort, State.setPort_setPort]
    exact takeVerdict_none (.inr (.inr (by simp)))
  · rw [startFrame_begins (h := w) (by rw [State.port_setPort]) (by rw [State.port_setPort, hmarkers]; omega),
      beginFrame, State.port_setPort, State.setPort_setPort, takeVerdict_none (.inr (.inr (by simp)))]
    simp only [Port.enqueue, List.append_assoc]
    rfl

/-- An admitted line: of a wrong length it is bad, and else measured in the window. -/
theorem Frame.admitLine_eq (f : Frame) (number : Nat) (pixels : List Pixel) :
    f.admitLine number pixels =
      let crc := crcMore f.crc (pixelBytes (pixels.take f.geometry.width))
      if pixels.length ≠ f.geometry.width then { f with crc := crc, bad := f.bad + 1 }
      else ({ f with crc := crc } : Frame).measure number pixels := by
  by_cases hlen : pixels.length = f.geometry.width
  · exact (if_pos hlen).trans (if_neg (not_not.2 hlen)).symm
  · exact (if_neg hlen).trans (if_pos hlen).symm

/-- Settles O52. -/
theorem linesOfAFrame : Obligations.LinesOfAFrame := by
  intro b pixels s hstart
  refine ⟨fun hframe => exec_event hstart rfl ?_, fun f hframe => ⟨fun hheight => exec_event hstart rfl ?_,
    fun hheight hlines => exec_event hstart rfl ?_, fun hheight hlines => exec_event hstart rfl ?_⟩⟩
  · rw [takeLine, hframe]
  · rw [takeLine, hframe]
    exact if_pos hheight
  · rw [takeLine, hframe]
    exact (if_neg hheight.not_ge).trans (if_pos hlines)
  · rw [takeLine, hframe]
    refine (if_neg hheight.not_ge).trans ((if_neg hlines.not_ge).trans ?_)
    rw [Frame.admitLine_eq]
    rfl

end Sys2Proof.Machine
end

section
/-! PROOFS of the family `other`: light. The gate (04, 05), the lamp supply and the lamp channels (03), and the dose
tick (04). -/
namespace Sys2Proof.Machine

/-! ### The tables of the collation replaced -/

/-- The leaf and fold-out tables replaced. -/
def State.withTables (s : State) (leaves : List LeafRecord) (foldouts : List (Option (List PanelRecord))) : State :=
  { s with col := { s.col with leaves := leaves, foldouts := foldouts } }

/-- The tally fields are the collation's. -/
theorem fieldsOf_col {s t : State} (h : t.col = s.col) (x : Target) : fieldsOf t x = fieldsOf s x := by
  cases x <;> simp only [fieldsOf, panelsOf, h]

/-- A change of tally fields replaces the two tables. -/
theorem modifyFields_eq_withTables (x : Target) (g : TallyFields → TallyFields) (s : State) :
    ∃ leaves foldouts, modifyFields x g s = s.withTables leaves foldouts := by
  cases x with
  | side i f => exact ⟨_, s.col.foldouts, rfl⟩
  | panel f n =>
    by_cases hn : n = 0
    · exact ⟨s.col.leaves, s.col.foldouts, by rw [modifyFields, if_pos hn]; rfl⟩
    · exact ⟨s.col.leaves, _, by rw [modifyFields, if_neg hn]; rfl⟩

/-- A change of tally fields leaves every leaf's ABSENT flag. -/
theorem absent_modifyFields (x : Target) (g : TallyFields → TallyFields) (s : State) (i : Nat) :
    (leafAt (modifyFields x g s) i).absent = (leafAt s i).absent := by
  cases x with
  | side j f =>
    simp only [leafAt, modifyFields, List.getD_eq_getElem?_getD, List.getElem?_modify]
    cases s.col.leaves[i]? with
    | none => rfl
    | some l => cases f <;> by_cases hij : j = i <;> simp [hij, LeafRecord.setFace]
  | panel f n => by_cases hn : n = 0 <;> simp only [leafAt, modifyFields, hn, if_true, if_false]

/-- The view depends on the volume, the leaves' ABSENT flags and the sequencer. -/
theorem inView_of_absent {s t : State} (hvolume : t.col.volume = s.col.volume)
    (habsent : ∀ i, (leafAt t i).absent = (leafAt s i).absent) (hseq : t.seq = s.seq) (b : Side) :
    inView t b = inView s b := by
  have hcount : leafCount t = leafCount s := by rw [leafCount, leafCount, hvolume]
  have hpresent : present t = present s := by
    funext i
    rw [present, present, hcount, habsent]
  have hbefore : presentBefore t = presentBefore s := by
    funext n
    induction n with
    | zero => rfl
    | succ n ih => simp only [presentBefore, hpresent, ih]
  have hturning : t.turning = s.turning := by rw [State.turning, State.turning, hvolume]
  have hside : sideInView t b = sideInView s b := by
    rw [sideInView, sideInView, hturning, hpresent, hbefore, hseq]
  rw [inView, inView, hseq, hvolume, hside]

/-- The two banks never see the same target. -/
theorem inView_ne {s : State} {b : Side} {x y : Target} (hx : inView s b = some x) (hy : inView s b.other = some y) :
    y ≠ x := by
  have hsides (hxs : sideInView s b = some x) (hys : sideInView s b.other = some y) : y ≠ x := by
    by_cases hb : b = s.turning
    · have hother : b.other ≠ s.turning := by rw [← hb]; cases b <;> decide
      rw [sideInView, if_pos hb] at hxs
      rw [sideInView, if_neg hother] at hys
      obtain ⟨i, -, rfl⟩ := Option.map_eq_some_iff.1 hys
      grind
    · have hother : b.other = s.turning := by
        revert hb
        cases b <;> cases s.turning <;> simp [Side.other]
      rw [sideInView, if_neg hb] at hxs
      rw [sideInView, if_pos hother] at hys
      obtain ⟨i, -, rfl⟩ := Option.map_eq_some_iff.1 hxs
      grind
  have hstack (hxk : s.seq.stackBank = some b) (hyk : s.seq.stackBank = some b.other) : False := by
    rw [hxk] at hyk
    cases b <;> cases hyk
  rw [inView] at hx hy
  cases hs : s.seq.state <;> simp only [hs] at hx hy <;> grind

/-! ### A charge (04 R80) -/

/-- A charge replaces the tables, adds to the volume dose, and leaves what is in view. -/
theorem charge_eq {x : Target} {q : TallyFields} {s : State} (n : Nat) (hq : fieldsOf s x = some q) :
    ∃ leaves foldouts, charge x n s =
        { s.withTables leaves foldouts with dose := { s.dose with volDose := s.dose.volDose + n } } ∧
      (∀ y, fieldsOf (s.withTables leaves foldouts) y =
        if y = x then some { q with dose := q.dose + n } else fieldsOf s y) ∧
      ∀ b, inView (s.withTables leaves foldouts) b = inView s b := by
  obtain ⟨leaves, foldouts, htables⟩ := modifyFields_eq_withTables x (fun q => { q with dose := q.dose + n }) s
  refine ⟨leaves, foldouts, ?_, fun y => ?_, fun b => ?_⟩
  · rw [charge, if_pos (by rw [hq]; rfl), htables]
    rfl
  · rw [← htables, fieldsOf_modifyFields, hq]
    rfl
  · exact inView_of_absent (s := s) (t := s.withTables leaves foldouts) rfl
      (fun i => by rw [← htables, absent_modifyFields]) rfl b

/-! ### The gate (04 R81 to R83, 05 R99 to R101) -/

theorem judgeGate_none {b : Side} {s : State} (h : (s.chan b).state ≠ .gating) : judgeGate b s = s := by
  unfold judgeGate
  cases hs : (s.chan b).state with
  | gating => exact absurd hs h
  | idle | arming | firing | awaiting | done => rfl

/-- A shot that passes a limit is withheld. -/
theorem judgeGate_withheld {b : Side} {s : State} {x : Target} {c : ShotCopy} {hit : LimitHit}
    (hstate : (s.chan b).state = .gating) (htarget : (s.chan b).target = some x) (hcopy : (s.chan b).copy = some c)
    (hhit : refusingLimit s x (gateFigures s b c).dose = some hit) : judgeGate b s = raise .doseWithheld
      (targetSlots x ++ [slot (sideNum b), slot (gateFigures s b c).dose, slot hit.num])
      ((settle x .withheld (s.setPort b (s.port b).takeBack)).setChan b ((s.chan b).ended .done)) := by
  simp only [judgeGate, hstate, htarget, hcopy, hhit]
  rw [settleChannel_eq .withheld (s := s.setPort b (s.port b).takeBack) htarget]
  rfl

/-- A shot that fits both limits is charged and fired. -/
theorem judgeGate_fires {b : Side} {s : State} {x : Target} {c : ShotCopy} (hstate : (s.chan b).state = .gating)
    (htarget : (s.chan b).target = some x) (hcopy : (s.chan b).copy = some c)
    (hfits : refusingLimit s x (gateFigures s b c).dose = none) :
    judgeGate b s = fire b x (gateFigures s b c) (charge x (gateFigures s b c).dose s) := by
  simp only [judgeGate, hstate, htarget, hcopy, hfits]

theorem refusingLimit_eq {s : State} {x : Target} {q : TallyFields} (n : Nat) (hq : fieldsOf s x = some q) :
    let side := decide ((doseLimits s).side < q.dose + n)
    let vol := decide ((doseLimits s).volume < s.dose.volDose + n)
    refusingLimit s x n = if side || vol then
      some (if side && vol then .both else if side then .side else .volume) else none := by
  have hdose : doseOf s x = q.dose := by rw [doseOf, hq]; rfl
  simp only [refusingLimit, hdose]
  cases decide ((doseLimits s).side < q.dose + n) <;> cases decide ((doseLimits s).volume < s.dose.volDose + n) <;> rfl

/-- The header of a port completed by a shot that fires (06 R120). -/
def completedHeader (p : Port) (g : GateFigures) (takes : Nat) (platenUp : Bool) (h : Header) : Header :=
  match p.state with
  | .idle => h
  | .armed => { h with fired := some (g, takes), moved := h.watched && platenUp }
  | .receiving => { h with fired := some (g, takes) }

theorem Port.complete_eq (p : Port) (g : GateFigures) (takes : Nat) (platenUp : Bool) :
    p.complete g takes platenUp = { p with armed := p.armed.map (completedHeader p g takes platenUp) } := by
  obtain ⟨state, armed, waiting, frame, queue, frameNo, unsolicited, refused⟩ := p
  cases state with
  | idle => cases armed <;> rfl
  | armed => rfl
  | receiving => rfl

/-- A shot charged and counted as a take. -/
theorem reportTake_charge_eq {x : Target} {q : TallyFields} {s : State} (n : Nat) (hq : fieldsOf s x = some q) :
    ∃ leaves foldouts, reportTake x (charge x n s) =
        { s.withTables leaves foldouts with dose := { s.dose with volDose := s.dose.volDose + n } } ∧
      ∀ y, fieldsOf (s.withTables leaves foldouts) y =
        if y = x then some { q with dose := q.dose + n, takes := countUp 255 q.takes } else fieldsOf s y := by
  obtain ⟨leaves, foldouts, hcharge, hfields, -⟩ := charge_eq n hq
  obtain ⟨leaves', foldouts', htables⟩ := modifyFields_eq_withTables x (fun q => { q with takes := countUp 255 q.takes })
    { s.withTables leaves foldouts with dose := { s.dose with volDose := s.dose.volDose + n } }
  refine ⟨leaves', foldouts', ?_, fun y => ?_⟩
  · rw [hcharge, reportTake, htables]
    rfl
  · have hread := fieldsOf_modifyFields { s.withTables leaves foldouts with
      dose := { s.dose with volDose := s.dose.volDose + n } } x y (fun q => { q with takes := countUp 255 q.takes })
    rw [htables] at hread
    refine hread.trans ?_
    change (if y = x then (fieldsOf (s.withTables leaves foldouts) x).map _ else
      fieldsOf (s.withTables leaves foldouts) y) = _
    rw [hfields, hfields, if_pos rfl]
    by_cases hy : y = x
    · rw [if_pos hy, if_pos hy]
      rfl
    · rw [if_neg hy, if_neg hy, if_neg hy]

/-- A channel as its shot fires. -/
def Channel.fired (c : Channel) (g : GateFigures) : Channel :=
  { c with state := .firing, takes := c.takes + 1, gate := some g, trigger := true }

/-- The part as a shot fires, before its strobe: the channel in FIRING, and its port's header completed. -/
def firingState (b : Side) (g : GateFigures) (takes : Nat) (t : State) : State :=
  (t.setPort b { t.port b with
    armed := (t.port b).armed.map (completedHeader (t.port b) g takes t.seq.levels.platenUp) }).setChan b
    ((t.chan b).fired g)

theorem fire_eq {b : Side} {x : Target} {g : GateFigures} {s t : State} {q : TallyFields} (ht : reportTake x s = t)
    (hq : fieldsOf t x = some q) : fire b x g s =
      if captureAllowed t then startStrobe b g (firingState b g q.takes t) else shotCut b (firingState b g q.takes t) := by
  simp only [fire, ht, hq, firingState, ← Port.complete_eq]
  rfl

theorem chan_firingState (b : Side) (g : GateFigures) (takes : Nat) (t : State) :
    (firingState b g takes t).chan b = (t.chan b).fired g := State.chan_setChan ..

theorem abandonHeader_firingState (b : Side) (g : GateFigures) (takes : Nat) (t : State) :
    abandonHeader b (firingState b g takes t) = (t.setPort b { t.port b with armed := (t.port b).armed.map fun h =>
      (completedHeader (t.port b) g takes t.seq.levels.platenUp h).abandon }).setChan b ((t.chan b).fired g) := by
  rw [firingState, State.setChan_setPort, abandonHeader, State.port_setPort, State.setPort_setPort, Port.mapArmed,
    Option.map_map]
  rfl

/-! ### A shot that the supply cuts (05 R101) -/

/-- A channel whose shot has been cut. -/
def Channel.cutShort (c : Channel) (st : ChanState) : Channel :=
  { c with state := st, trigger := false, gate := none, kept := none, timeout := none }

theorem shotCut_eq {b : Side} {s : State} (hstate : (s.chan b).state = .firing) : shotCut b s =
    rejectShot b .supplyCut ((abandonHeader b s).setChan b { s.chan b with trigger := false, kept := none }) :=
  if_pos hstate

theorem shotCut_again {b : Side} {s : State} {x : Target} {k : ShotCopy} (hstate : (s.chan b).state = .firing)
    (htarget : (s.chan b).target = some x) (hcopy : (s.chan b).copy = some k) (htakes : (s.chan b).takes < k.takeLimit) :
    shotCut b s = (abandonHeader b s).setChan b ((s.chan b).cutShort .idle) := by
  have hchan := State.chan_setChan (abandonHeader b s) b { s.chan b with trigger := false, kept := none }
  rw [shotCut_eq hstate, rejectShot_again .supplyCut (x := x) (k := k) (by rw [hchan, htarget]) (by rw [hchan, hcopy])
    (by rw [hchan]; exact htakes), hchan, State.setChan_setChan]
  rfl

theorem shotCut_last {b : Side} {s : State} {x : Target} {k : ShotCopy} (hstate : (s.chan b).state = .firing)
    (htarget : (s.chan b).target = some x) (hcopy : (s.chan b).copy = some k) (htakes : k.takeLimit ≤ (s.chan b).takes) :
    shotCut b s = raise .sideRejected (targetSlots x ++ [slot (s.chan b).shot, 10])
      ((settle x .rejected (abandonHeader b s)).setChan b ((s.chan b).cutShort .done)) := by
  have hchan := State.chan_setChan (abandonHeader b s) b { s.chan b with trigger := false, kept := none }
  rw [shotCut_eq hstate, rejectShot_last .supplyCut (x := x) (k := k) (by rw [hchan, htarget]) (by rw [hchan, hcopy])
    (by rw [hchan]; exact htakes), hchan, settle_setChan, State.setChan_setChan]
  rfl

/-- Settles O45. -/
theorem theGateFiresOrWithholds : Obligations.TheGateFiresOrWithholds := by
  intro b s hstart
  have judged {t : State} (h : judgeGate b s = t) : exec (.gateRequest b) s = .next (idleBoundary (react t)) :=
    exec_event hstart rfl (congrArg react h)
  refine ⟨fun hstate => judged (judgeGate_none hstate), fun x c q hstate htarget hcopy hq => ?_⟩
  have hlimit := refusingLimit_eq (gateFigures s b c).dose hq
  refine ⟨fun hpasses => judged ?_, fun hfits => ?_⟩
  · rw [judgeGate_withheld hstate htarget hcopy (hlimit.trans (if_pos hpasses))]
    cases decide ((doseLimits s).side < q.dose + (gateFigures s b c).dose) <;>
      cases decide ((doseLimits s).volume < s.dose.volDose + (gateFigures s b c).dose) <;> rfl
  · obtain ⟨leaves, foldouts, ht, hfields⟩ := reportTake_charge_eq (gateFigures s b c).dose hq
    have hfire := (judgeGate_fires hstate htarget hcopy (hlimit.trans (if_neg (by rw [hfits]; decide)))).trans
      (fire_eq ht ((hfields x).trans (if_pos rfl)))
    have hport := (s.port b).complete_eq (gateFigures s b c) (countUp 255 q.takes) s.seq.levels.platenUp
    have hcut (hsupply : s.lamps.supply ≠ .good) : captureAllowed s = false := by simpa [captureAllowed] using hsupply
    refine ⟨{ s.withTables leaves foldouts with dose := { s.dose with
      volDose := s.dose.volDose + (gateFigures s b c).dose } }, rfl, hfields, fun hsupply => judged (hfire.trans ?_),
      fun hsupply => ⟨fun htakes => judged (hfire.trans ?_), fun htakes => judged (hfire.trans ?_)⟩⟩
    · exact if_pos (beq_iff_eq.2 hsupply)
    · refine (if_neg (Bool.eq_false_iff.1 (hcut hsupply))).trans ((shotCut_again (x := x) (k := c)
        (by rw [chan_firingState]; rfl) (by rw [chan_firingState]; exact htarget)
        (by rw [chan_firingState]; exact hcopy) (by rw [chan_firingState]; exact htakes)).trans ?_)
      rw [abandonHeader_firingState, chan_firingState, State.setChan_setChan]
      rfl
    · refine (if_neg (Bool.eq_false_iff.1 (hcut hsupply))).trans ((shotCut_last (x := x) (k := c)
        (by rw [chan_firingState]; rfl) (by rw [chan_firingState]; exact htarget)
        (by rw [chan_firingState]; exact hcopy) (by rw [chan_firingState]; exact htakes)).trans ?_)
      rw [abandonHeader_firingState, chan_firingState, settle_setChan, State.setChan_setChan]
      rfl

/-! ### The lamp supply (03 R65 to R67) -/

theorem cutStrobe_none {b : Side} {s : State} (h : s.lamps.strobe.get b = none) : cutStrobe b s = s := by
  rw [cutStrobe, if_neg (by simp [h])]

theorem cutStrobe_some {b : Side} {s : State} {z : Strobe} (h : s.lamps.strobe.get b = some z) :
    cutStrobe b s = shotCut b (setStrobe b none s) := by
  rw [cutStrobe, if_pos (by simp [h])]

/-- A settling does not touch the lamps. -/
theorem settle_lamps (x : Target) (a : TState) (s : State) : (settle x a s).lamps = s.lamps := by
  have hmark (u : State) : (markSettledHere x u).lamps = u.lamps := by
    rw [markSettledHere]
    split <;> rfl
  rw [settle]
  split
  · rw [hmark, dropRetake_rest, changeState_rest]
  · rfl

theorem rejectShot_lamps (b : Side) (why : Rejection) (s : State) : (rejectShot b why s).lamps = s.lamps := by
  unfold rejectShot
  split
  · rfl
  · next x hx =>
    split
    · rfl
    · rw [settleChannel_eq .rejected hx, raise_lamps]
      exact settle_lamps x .rejected s

theorem shotCut_lamps (b : Side) (s : State) : (shotCut b s).lamps = s.lamps := by
  rw [shotCut]
  split
  · exact rejectShot_lamps ..
  · rfl

/-- A loss with one strobe running cuts that one. -/
theorem cutStrobes_one {b : Side} {s : State} {z : Strobe} (hstrobe : s.lamps.strobe.get b = some z)
    (hother : s.lamps.strobe.get b.other = none) :
    cutStrobe .right (cutStrobe .left s) = shotCut b (setStrobe b none s) := by
  cases b with
  | left => rw [cutStrobe_some hstrobe, cutStrobe_none (by rw [shotCut_lamps]; exact hother)]
  | right => rw [cutStrobe_none (b := .left) hother, cutStrobe_some hstrobe]

theorem Both.set_eq_both {α : Type} {p : Both α} {b : Side} {x : α} (h : p.get b.other = x) : p.set b x = both x := by
  subst h
  cases b <;> rfl

theorem goodSupply_low {s : State} (h : s.lamps.supply = .low) : goodSupply s = setSupply .recovering 0 s := by
  rw [goodSupply, h]

theorem goodSupply_recovering {s : State} (h : s.lamps.supply = .recovering) : goodSupply s =
    if s.lamps.recovery < 499 then setSupply .recovering (s.lamps.recovery + 1) s else supplyReturns s := by
  rw [goodSupply, h]
  by_cases hshort : s.lamps.recovery < 499
  · exact (if_neg (by omega)).trans (if_pos hshort).symm
  · exact (if_pos (by omega)).trans (if_neg hshort).symm

theorem goodSupply_good {s : State} (h : s.lamps.supply = .good) : goodSupply s = s := by
  rw [goodSupply, h]

theorem badSupply_low {s : State} (h : s.lamps.supply = .low) : badSupply s = s := by
  rw [badSupply, h]

theorem badSupply_loss {s : State} (h : s.lamps.supply ≠ .low) : badSupply s =
    react (raise .lampSupply [slot (strobesRunning s)] (cutStrobe .right (cutStrobe .left (setSupply .low 0 s)))) := by
  rw [badSupply]
  cases hs : s.lamps.supply with
  | low => exact absurd hs h
  | recovering | good => rfl

/-- The part with the supply LOW and no strobe running. -/
def strobesGone (s : State) : State :=
  { s with lamps := { s.lamps with supply := .low, recovery := 0, strobe := both none } }

theorem setStrobe_setSupply {b : Side} {s : State} (hother : s.lamps.strobe.get b.other = none) :
    setStrobe b none (setSupply .low 0 s) = strobesGone s := by
  have hboth : s.lamps.strobe.set b none = both none := Both.set_eq_both hother
  rw [strobesGone, ← hboth]
  rfl

theorem badSupply_dark {s : State} (h : s.lamps.supply ≠ .low) (hleft : s.lamps.strobe.left = none)
    (hright : s.lamps.strobe.right = none) : badSupply s = react (raise .lampSupply [0] (setSupply .low 0 s)) := by
  rw [badSupply_loss h, cutStrobe_none (b := .left) (s := setSupply .low 0 s) hleft,
    cutStrobe_none (b := .right) (s := setSupply .low 0 s) hright, strobesRunning, hleft, hright]
  rfl

theorem badSupply_one {b : Side} {s : State} {z : Strobe} (h : s.lamps.supply ≠ .low)
    (hstrobe : s.lamps.strobe.get b = some z) (hother : s.lamps.strobe.get b.other = none) :
    badSupply s = react (raise .lampSupply [if b = .left then 1 else 2]
      (shotCut b (strobesGone s))) := by
  have hbanks : slot (strobesRunning s) = if b = .left then 1 else 2 := by
    cases b
    all_goals
      simp only [Both.get, Side.other] at hstrobe hother
      simp only [strobesRunning, hstrobe, hother]
      rfl
  rw [badSupply_loss h, cutStrobes_one (b := b) (s := setSupply .low 0 s) hstrobe hother, setStrobe_setSupply hother, hbanks]

/-- A shot in flight that a supply loss sends back: its channel in FIRING, with takes left. -/
def CutWithTakes (b : Side) (s : State) : Prop :=
  s.lamps.strobe.get b ≠ none ∧ (s.chan b).state = .firing ∧
    ∃ x k, (s.chan b).target = some x ∧ (s.chan b).copy = some k ∧ (s.chan b).takes < k.takeLimit

theorem cutStrobe_again {b : Side} {s : State} (h : CutWithTakes b s) : cutStrobe b s =
    (abandonHeader b (setStrobe b none s)).setChan b ((s.chan b).cutShort .idle) := by
  obtain ⟨hstrobe, hstate, x, k, htarget, hcopy, htakes⟩ := h
  obtain ⟨z, hz⟩ := Option.ne_none_iff_exists'.1 hstrobe
  rw [cutStrobe_some hz]
  exact shotCut_again (s := setStrobe b none s) hstate htarget hcopy htakes

theorem badSupply_both {s : State} (h : s.lamps.supply ≠ .low) (hleft : CutWithTakes .left s)
    (hright : CutWithTakes .right s) : badSupply s = react (raise .lampSupply [3] { s with
      lamps := { s.lamps with supply := .low, recovery := 0, strobe := both none }
      chans := ⟨s.chans.left.cutShort .idle, s.chans.right.cutShort .idle⟩
      ports := ⟨s.ports.left.mapArmed .abandon, s.ports.right.mapArmed .abandon⟩ }) := by
  have hbanks : slot (strobesRunning s) = 3 := by
    obtain ⟨zl, hzl⟩ := Option.ne_none_iff_exists'.1 hleft.1
    obtain ⟨zr, hzr⟩ := Option.ne_none_iff_exists'.1 hright.1
    simp only [Both.get] at hzl hzr
    simp only [strobesRunning, hzl, hzr]
    rfl
  rw [badSupply_loss h, hbanks, cutStrobe_again (b := .left) (s := setSupply .low 0 s) hleft,
    cutStrobe_again (b := .right) (by exact hright)]
  simp only [abandonHeader, State.setChan, State.setPort, setStrobe, setSupply, Both.set, State.port, State.chan, Both.get]
  rfl

/-- Settles O49. -/
theorem theLampSupply : Obligations.TheLampSupply := by
  intro s hstart
  have sampled {t : State} (h : goodSupply (setSupplyPin true s) = t) :
      exec .supplyGoodSample s = .next (idleBoundary t) :=
    exec_event (u := setSupplyPin true s) (f := goodSupply) hstart rfl h
  have recovered {t : State} (h : endRecovery (setSupplyPin true s) = t) :
      exec .supplyRecovered s = .next (idleBoundary t) :=
    exec_event (u := setSupplyPin true s) (f := endRecovery) hstart rfl h
  have lost {t : State} (h : badSupply (setSupplyPin false s) = t) : exec .supplyLoss s = .next (idleBoundary t) :=
    exec_event (u := setSupplyPin false s) (f := badSupply) hstart rfl h
  refine ⟨fun hlow => ⟨sampled (goodSupply_low hlow), recovered (if_neg (by simp [setSupplyPin, hlow])),
      lost (badSupply_low hlow)⟩,
    fun hgood => ⟨sampled (goodSupply_good hgood), recovered (if_neg (by simp [setSupplyPin, hgood]))⟩,
    fun hrec => ⟨recovered (if_pos hrec), sampled (goodSupply_recovering hrec)⟩,
    fun hsupply => ⟨fun hleft hright => lost (badSupply_dark (s := setSupplyPin false s) hsupply hleft hright),
      fun b z x k hstrobe hother hstate htarget hcopy => ?_,
      fun hboth => lost (badSupply_both (s := setSupplyPin false s) hsupply (hboth .left) (hboth .right))⟩⟩
  have hloss := badSupply_one (s := setSupplyPin false s) hsupply hstrobe hother
  have cut {t : State} (h : shotCut b (strobesGone (setSupplyPin false s)) = t) :=
    lost (hloss.trans (congrArg (fun u => react (raise .lampSupply [if b = .left then 1 else 2] u)) h))
  exact ⟨fun htakes => cut (shotCut_again (s := strobesGone (setSupplyPin false s)) hstate htarget hcopy htakes),
    fun htakes => cut (shotCut_last (s := strobesGone (setSupplyPin false s)) hstate htarget hcopy htakes)⟩

/-! ### The dose tick (04 R84 to R87) -/

theorem tickBank_unlit {b : Side} {s : State} (h : (bankLevel s b == .preview && (inView s b).isSome) = false) :
    tickBank b s = s := by
  rw [tickBank]
  split
  · next hlevel =>
    have hview : inView s b = none := by simpa [hlevel] using h
    rw [hview]
  · rfl

/-- PREVIEW_CUT raised where a charge does not fit the room. -/
def tellPreviewCut (b : Side) (x : Target) (charge side vol : Nat) (s : State) : State :=
  if charge ≤ min side vol then s
  else raise .previewCut ([slot (sideNum b)] ++ targetSlots x ++
    [slot (min side vol), if side < vol then 0 else if vol < side then 1 else 2]) s

/-- The preview-cut marks after a charge. -/
def cutMarks (b : Side) (charge room : Nat) (cut : Both Bool) : Both Bool :=
  if charge ≤ room then cut else cut.set b true

/-- A lit bank over a target: its preview charge, or the room. -/
theorem tickBank_lit {b : Side} {s : State} {x : Target} {q : TallyFields} (hlevel : bankLevel s b = .preview)
    (hview : inView s b = some x) (hq : fieldsOf s x = some q) :
    let side := (doseLimits s).side - q.dose
    let vol := (doseLimits s).volume - s.dose.volDose
    let u := charge x (min (previewCharge s b) (min side vol)) s
    tickBank b s = tellPreviewCut b x (previewCharge s b) side vol
      { u with lamps := { s.lamps with cut := cutMarks b (previewCharge s b) (min side vol) s.lamps.cut } } := by
  intro side vol u
  have hdose : doseOf s x = q.dose := by rw [doseOf, hq]; rfl
  have hroom : roomOf s x = min side vol := by rw [roomOf, hdose]
  have hlamps (n : Nat) : (charge x n s).lamps = s.lamps := by rw [charge_rest]
  rw [tickBank, if_pos hlevel, hview]
  simp only [hroom]
  by_cases hfits : previewCharge s b ≤ min side vol
  · have hu : u = charge x (previewCharge s b) s := by rw [← min_eq_left hfits]
    rw [if_pos hfits, tellPreviewCut, if_pos hfits, cutMarks, if_pos hfits, hu, charge_rest]
  · have hu : u = charge x (min side vol) s := by rw [← min_eq_right (Nat.le_of_not_le hfits)]
    have hreached : slot (reachedLimit s x).num = if side < vol then 0 else if vol < side then 1 else 2 := by
      simp only [reachedLimit, hdose]
      change slot (LimitHit.num (if side < vol then .side else if vol < side then .volume else .both)) = _
      split
      · rfl
      · split <;> rfl
    rw [if_neg hfits, tellPreviewCut, if_neg hfits, cutMarks, if_neg hfits, hu, hreached, setCut, hlamps]

/-! A notice commutes with the rest of a tick. -/

theorem modifyFields_raise (x : Target) (g : TallyFields → TallyFields) (src : Source) (detail : List Slot) (s : State) :
    modifyFields x g (raise src detail s) = raise src detail (modifyFields x g s) := by
  cases x with
  | side => rfl
  | panel f n =>
    simp only [modifyFields]
    split <;> rfl

theorem charge_raise (x : Target) (n : Nat) (src : Source) (detail : List Slot) (s : State) :
    charge x n (raise src detail s) = raise src detail (charge x n s) := by
  have hfields : fieldsOf (raise src detail s) x = fieldsOf s x := by cases x <;> rfl
  simp only [charge, hfields, modifyFields_raise]
  split <;> rfl

theorem charge_tellPreviewCut (y : Target) (n : Nat) (b : Side) (x : Target) (c side vol : Nat) (s : State) :
    charge y n (tellPreviewCut b x c side vol s) = tellPreviewCut b x c side vol (charge y n s) := by
  simp only [tellPreviewCut]
  split
  · rfl
  · exact charge_raise ..

theorem tellPreviewCut_rest (b : Side) (x : Target) (c side vol : Nat) (s : State) : tellPreviewCut b x c side vol s =
    { s with notices := (tellPreviewCut b x c side vol s).notices } := by
  rw [tellPreviewCut]
  split <;> rfl

theorem tellPreviewCut_lamps (b : Side) (x : Target) (c side vol : Nat) (s : State) (l : Lamps) :
    { tellPreviewCut b x c side vol s with lamps := l } = tellPreviewCut b x c side vol { s with lamps := l } := by
  rw [tellPreviewCut, tellPreviewCut]
  split <;> rfl

/-- The phase of the dose tick starts afresh. -/
def restartTick (s : State) : State := { s with dose := { s.dose with tickMs := 0 } }

theorem restartTick_tellPreviewCut (b : Side) (x : Target) (c side vol : Nat) (s : State) :
    restartTick (tellPreviewCut b x c side vol s) = tellPreviewCut b x c side vol (restartTick s) := by
  rw [tellPreviewCut, tellPreviewCut]
  split <;> rfl

theorem tickDose_eq (first : Side) (s : State) : tickDose first s = restartTick (tickBank first.other (tickBank first s)) :=
  rfl

theorem bankLevel_congr {s t : State} {b : Side} (hseq : t.seq = s.seq) (hsupply : t.lamps.supply = s.lamps.supply)
    (hstrobe : t.lamps.strobe.get b = s.lamps.strobe.get b) (hexpired : t.lamps.darkExpired = s.lamps.darkExpired)
    (hcut : t.lamps.cut.get b = s.lamps.cut.get b) : bankLevel t b = bankLevel s b := by
  have hdark : darkTest t b = darkTest s b := by
    rw [darkTest, darkTest, hseq, hsupply, hstrobe, hexpired, hcut]
  rw [bankLevel, bankLevel, hdark, hstrobe]

theorem cutMarks_get_other (b : Side) (c room : Nat) (cut : Both Bool) :
    (cutMarks b c room cut).get b.other = cut.get b.other := by
  rw [cutMarks]
  split
  · rfl
  · exact Both.get_set_other ..

/-- The part after the tick of one lit bank, but for the notice. -/
def tickedBank (b : Side) (s : State) (leaves : List LeafRecord) (foldouts : List (Option (List PanelRecord)))
    (charged room : Nat) : State :=
  { s.withTables leaves foldouts with
    dose := { s.dose with volDose := s.dose.volDose + charged }
    lamps := { s.lamps with cut := cutMarks b (previewCharge s b) room s.lamps.cut } }

theorem tickBank_eq {b : Side} {s : State} {x : Target} {q : TallyFields} (hlevel : bankLevel s b = .preview)
    (hview : inView s b = some x) (hq : fieldsOf s x = some q) :
    let side := (doseLimits s).side - q.dose
    let vol := (doseLimits s).volume - s.dose.volDose
    let charged := min (previewCharge s b) (min side vol)
    ∃ leaves foldouts,
      tickBank b s = tellPreviewCut b x (previewCharge s b) side vol
        (tickedBank b s leaves foldouts charged (min side vol)) ∧
      (∀ y, fieldsOf (s.withTables leaves foldouts) y =
        if y = x then some { q with dose := q.dose + charged } else fieldsOf s y) ∧
      ∀ d, inView (s.withTables leaves foldouts) d = inView s d := by
  intro side vol charged
  obtain ⟨leaves, foldouts, hcharge, hfields, hviews⟩ := charge_eq charged hq
  refine ⟨leaves, foldouts, ?_, hfields, hviews⟩
  rw [tickBank_lit hlevel hview hq, hcharge]
  rfl

/-- The other bank stands as it was before the tick of a lit one. -/
theorem bankLevel_tickedBank (b : Side) (s : State) (leaves : List LeafRecord)
    (foldouts : List (Option (List PanelRecord))) (charged room : Nat) :
    bankLevel (tickedBank b s leaves foldouts charged room) b.other = bankLevel s b.other :=
  bankLevel_congr rfl rfl rfl rfl (cutMarks_get_other ..)

/-- The state in which the other bank is judged: only the notices tell it from `tickedBank`. -/
theorem views_after_tick {b : Side} {s u : State} {leaves : List LeafRecord}
    {foldouts : List (Option (List PanelRecord))} {charged room : Nat} {notices : Notices}
    (hu : u = { tickedBank b s leaves foldouts charged room with notices := notices })
    (hviews : ∀ d, inView (s.withTables leaves foldouts) d = inView s d) :
    bankLevel u b.other = bankLevel s b.other ∧ inView u b.other = inView s b.other := by
  subst hu
  refine ⟨bankLevel_tickedBank b s leaves foldouts charged room, ?_⟩
  exact (inView_congr (s := s.withTables leaves foldouts)
    (t := { tickedBank b s leaves foldouts charged room with notices := notices }) rfl rfl rfl rfl rfl _).trans (hviews _)

/-- Settles O50. -/
theorem theDoseTick : Obligations.TheDoseTick := by
  intro b first s hstart
  have ticked {t : State} (h : tickDose first s = t) : exec (.doseTick first) s = .next (idleBoundary t) :=
    exec_event hstart rfl h
  have lit_iff {d : Side} {x : Target} (hlit : (bankLevel s d == .preview && (inView s d).isSome) = true) :
      bankLevel s d = .preview := by simp_all
  refine ⟨fun hleft hright => ticked ?_, fun x q hlit hdark hview hq => ?_, fun x q y r hlit hlit' hview hq hview' hr => ?_⟩
  · have unlit (d : Side) : tickBank d s = s := by
      cases d
      · exact tickBank_unlit hleft
      · exact tickBank_unlit hright
    rw [tickDose, unlit, unlit]
  · obtain ⟨leaves, foldouts, htick, hfields, hviews⟩ := tickBank_eq (lit_iff (x := x) hlit) hview hq
    have hother : tickBank b.other (tickBank b s) = tickBank b s := by
      obtain ⟨hlevel, hsame⟩ := views_after_tick (htick.trans (tellPreviewCut_rest ..)) hviews
      exact tickBank_unlit (by rw [hlevel, hsame]; exact hdark)
    have hboth : tickBank first.other (tickBank first s) = tickBank b s := by
      by_cases hfirst : first = b
      · rw [hfirst, hother]
      · have hswap : first = b.other := by cases first <;> cases b <;> simp_all [Side.other]
        have hback : b.other.other = b := by cases b <;> rfl
        rw [hswap, hback, tickBank_unlit hdark]
    refine ⟨restartTick (tickedBank b s leaves foldouts _ _), ticked ?_, rfl, hfields⟩
    rw [tickDose_eq, hboth, htick, restartTick_tellPreviewCut]
    rfl
  · obtain ⟨leaves, foldouts, htick, hfields, hviews⟩ := tickBank_eq (lit_iff (x := x) hlit) hview hq
    have hu := htick.trans (tellPreviewCut_rest ..)
    obtain ⟨hlevel, hsame⟩ := views_after_tick hu hviews
    have hy : fieldsOf (tickBank first s) y = some r := by
      rw [hu]
      exact (hfields y).trans ((if_neg (inView_ne hview hview')).trans hr)
    have hsecond := tickBank_lit (s := tickBank first s) (hlevel.trans (lit_iff (x := y) hlit')) (hsame.trans hview') hy
    have hcharge : previewCharge (tickBank first s) first.other = previewCharge s first.other := by rw [hu]; rfl
    have hlimits : doseLimits (tickBank first s) = doseLimits s := by rw [hu]; rfl
    have hdose : (tickBank first s).dose.volDose = s.dose.volDose + min (previewCharge s first)
        (min ((doseLimits s).side - q.dose) ((doseLimits s).volume - s.dose.volDose)) := by rw [hu]; rfl
    have hlamps : (tickBank first s).lamps = { s.lamps with 
        cut := cutMarks first (previewCharge s first)
          (min ((doseLimits s).side - q.dose) ((doseLimits s).volume - s.dose.volDose)) s.lamps.cut } := by rw [hu]; rfl
    simp only [hcharge, hlimits, hdose, hlamps] at hsecond
    generalize hV : tickedBank first s leaves foldouts _ _ = V at htick
    have hVfields (z : Target) : fieldsOf V z = if z = x then some _ else fieldsOf s z :=
      (fieldsOf_col (s := s.withTables leaves foldouts) (by rw [← hV]; rfl) z).trans (hfields z)
    obtain ⟨leaves', foldouts', hcharged, hfields', -⟩ := charge_eq (s := V) _
      ((hVfields y).trans ((if_neg (inView_ne hview hview')).trans hr))
    rw [htick, charge_tellPreviewCut, hcharged, tellPreviewCut_lamps, ← htick] at hsecond
    have hboth := (tickDose_eq first s).trans (congrArg restartTick hsecond)
    rw [restartTick_tellPreviewCut, restartTick_tellPreviewCut] at hboth
    refine ⟨_, ticked hboth, by rw [← hV]; rfl, fun z => ?_⟩
    refine (fieldsOf_col (s := V.withTables leaves' foldouts') rfl z).trans ((hfields' z).trans ?_)
    rw [hVfields]
    by_cases hz : z = x
    · rw [if_pos hz, if_pos hz, if_neg (by rw [hz]; exact (inView_ne hview hview').symm)]
    · rw [if_neg hz, if_neg hz]

end Sys2Proof.Machine
end

section
/-! PROOFS of the family `other`: the lamp channels' drive and their lock-outs (03 R54 to R58). -/
namespace Sys2Proof.Machine

/-! ### A channel within its bank -/

theorem channelReady_iff (s : State) (c : Nat) :
    channelReady s c = true ↔ ¬(lockoutOf s c ≠ none ∨ (calOf s c).rating = 0) := by
  rw [channelReady, Bool.and_eq_true, Option.isNone_iff_eq_none, decide_eq_true_iff]
  grind

/-- The place of a channel in its bank. -/
def placeOf (c : Nat) : Nat := c - firstChannel (bankOf c)

theorem firstChannel_add_placeOf (c : Nat) : firstChannel (bankOf c) + placeOf c = c := by
  unfold placeOf firstChannel bankOf
  grind

theorem slotOwner_eq_iff (s : State) (c : Nat) :
    c = slotOwner s (bankOf c) ↔ s.lamps.scanSlot.get (bankOf c) = placeOf c := by
  have h := firstChannel_add_placeOf c
  rw [slotOwner]
  omega

theorem strobeDuty_eq (s : State) (c : Nat) : strobeDuty s c =
    ((s.lamps.strobe.get (bankOf c)).map fun z => z.duties.getD (placeOf c) 0).getD 0 := by
  rw [strobeDuty]
  cases s.lamps.strobe.get (bankOf c) <;> rfl

theorem driveDuty_eq (s : State) (c : Nat) : driveDuty s c =
    if lockoutOf s c ≠ none ∨ (calOf s c).rating = 0 then 0
    else match bankLevel s (bankOf c) with
      | .dark => 0
      | .preview => if s.lamps.scanSlot.get (bankOf c) = placeOf c then s.lamps.slotDuty.get (bankOf c)
          else min (calOf s c).preview (calOf s c).cap
      | .strobe => ((s.lamps.strobe.get (bankOf c)).map fun z => z.duties.getD (placeOf c) 0).getD 0 := by
  by_cases hready : lockoutOf s c ≠ none ∨ (calOf s c).rating = 0
  · rw [driveDuty, if_neg fun h => (channelReady_iff s c).1 h hready, if_pos hready]
  · rw [driveDuty, if_pos ((channelReady_iff s c).2 hready), if_neg hready]
    cases bankLevel s (bankOf c) with
    | dark => rfl
    | preview => simp only [slotOwner_eq_iff]; rfl
    | strobe => exact strobeDuty_eq s c

theorem conducts_iff (s : State) (c k : Nat) :
    conducts s c k = true ↔ s.lamps.scanSlot.get (bankOf c) = placeOf c ∧ k < driveDuty s c := by
  rw [conducts, Bool.and_eq_true, decide_eq_true_iff, decide_eq_true_iff, ← slotOwner_eq_iff]
  change c = slotOwner s (bankOf c) ∧ k < driveDuty s (slotOwner s (bankOf c)) ↔ _
  constructor
  · rintro ⟨howner, hk⟩
    rw [← howner] at hk
    exact ⟨howner, hk⟩
  · rintro ⟨howner, hk⟩
    rw [← howner]
    exact ⟨rfl, hk⟩

/-! ### A lock-out -/

/-- A channel's lock-out replaced. -/
def setLockout (c : Nat) (k : Option LampFault) (s : State) : State :=
  { s with lamps := { s.lamps with lockouts := s.lamps.lockouts.set c k } }

theorem lockoutOf_setLockout_other {c d : Nat} (k : Option LampFault) (s : State) (h : d ≠ c) :
    lockoutOf (setLockout c k s) d = lockoutOf s d := by
  simp only [lockoutOf, setLockout, List.getElem?_set_ne h.symm]

theorem lockoutOf_setLockout_some {c : Nat} (k : LampFault) {s : State} (h : c < s.lamps.lockouts.length) :
    lockoutOf (setLockout c (some k) s) c = some k := by
  simp only [lockoutOf, setLockout, List.getElem?_set_self h, Option.join_some]

theorem lockoutOf_setLockout_none (c : Nat) (s : State) : lockoutOf (setLockout c none s) c = none := by
  simp only [lockoutOf, setLockout, List.getElem?_set]
  grind

theorem channelStateNum_setLockout_none (c : Nat) (s : State) :
    slot (channelStateNum (setLockout c none s) c) = if 0 < (calOf s c).rating then 1 else 0 := by
  rw [channelStateNum, lockoutOf_setLockout_none]
  change slot (if 0 < (calOf s c).rating then 1 else 0) = _
  split <;> rfl

/-! ### Running strobes darkened -/

theorem darkenStrobes_strobe (t : State) (b : Side) : (darkenStrobes t).lamps.strobe.get b =
    (t.lamps.strobe.get b).map fun z => { z with
      duties := z.duties.mapIdx fun i d => if channelReady t (firstChannel b + i) then d else 0 } := by
  rw [darkenStrobes_eq]
  cases b with
  | left => simp only [Both.get, firstChannel, Nat.zero_add]
  | right => rfl

theorem bankLevel_darkenStrobes (t : State) (b : Side) : bankLevel (darkenStrobes t) b = bankLevel t b := by
  have hsome : ((darkenStrobes t).lamps.strobe.get b).isSome = (t.lamps.strobe.get b).isSome := by
    rw [darkenStrobes_strobe, Option.isSome_map]
  have hdark : darkTest (darkenStrobes t) b = darkTest t b := by
    rw [darkTest, hsome, darkTest, darkenStrobes_eq]
  rw [bankLevel, bankLevel, hdark, hsome]

theorem channelReady_darkenStrobes (t : State) (c : Nat) : channelReady (darkenStrobes t) c = channelReady t c := by
  rw [darkenStrobes_eq]
  rfl

theorem strobeDuty_darkenStrobes (t : State) (c : Nat) :
    strobeDuty (darkenStrobes t) c = if channelReady t c then strobeDuty t c else 0 := by
  rw [strobeDuty_eq, strobeDuty_eq, darkenStrobes_strobe]
  cases t.lamps.strobe.get (bankOf c) with
  | none => simp
  | some z =>
    simp only [Option.map_some, Option.getD_some, List.getD_eq_getElem?_getD, List.getElem?_mapIdx,
      firstChannel_add_placeOf]
    cases z.duties[placeOf c]? <;> simp

/-- Darkening takes nothing from a READY channel, and the others are dark already. -/
theorem driveDuty_darkenStrobes (t : State) (c : Nat) : driveDuty (darkenStrobes t) c = driveDuty t c := by
  have howner : slotOwner (darkenStrobes t) (bankOf c) = slotOwner t (bankOf c) := by rw [darkenStrobes_eq]; rfl
  have hslot : (darkenStrobes t).lamps.slotDuty = t.lamps.slotDuty := by rw [darkenStrobes_eq]
  have hcapped : cappedPreview (darkenStrobes t) c = cappedPreview t c := by rw [darkenStrobes_eq]; rfl
  rw [driveDuty, driveDuty, channelReady_darkenStrobes, bankLevel_darkenStrobes, strobeDuty_darkenStrobes, howner, hslot,
    hcapped]
  cases channelReady t c <;> rfl

/-- A lock-out leaves the drive of every other channel. -/
theorem driveDuty_setLockout_other {c d : Nat} (k : Option LampFault) (s : State) (h : d ≠ c) :
    driveDuty (setLockout c k s) d = driveDuty s d := by
  have hready : channelReady (setLockout c k s) d = channelReady s d := by
    rw [channelReady, lockoutOf_setLockout_other k s h]
    rfl
  rw [driveDuty, hready]
  rfl

theorem channelReady_setLockout_some {c : Nat} (k : LampFault) {s : State} (h : c < s.lamps.lockouts.length) :
    channelReady (setLockout c (some k) s) c = false := by
  rw [channelReady, lockoutOf_setLockout_some k h]
  rfl

theorem lockOut_judged {c : Nat} (k : LampFault) {s : State} (h : 8 ≤ driveDuty s c) :
    lockOut c k s = raise .channelLockout [slot c, slot (lampFaultNum k)] (darkenStrobes (setLockout c (some k) s)) :=
  if_pos h

/-- Settles O22: the drive by `driveDuty_eq`, and a lock-out by what it and the darkened strobes leave. -/
theorem lampLockouts : Obligations.LampLockouts := by
  intro s
  refine ⟨fun c k => ?_, fun tag w htakes => exec_answers htakes rfl ?_, fun c k hstart hlaw =>
    ⟨fun hduty => ?_, fun hduty => ?_⟩⟩
  · have hplace : placeOf c = if c.val < 6 then c.val else c.val - 6 := by
      unfold placeOf firstChannel bankOf
      grind
    intro b i duty
    have hdrive : driveDuty s c = duty := by
      rw [driveDuty_eq, hplace]
      rfl
    refine ⟨hdrive, ?_⟩
    rw [conducts_iff, hdrive, hplace]
    rfl
  · rw [clearLampRule, if_neg (by simp)]
    by_cases hrange : 11 < w.toNat
    · exact (if_pos hrange).trans (if_pos hrange).symm
    · refine (if_neg hrange).trans (Eq.trans ?_ (if_neg hrange).symm)
      by_cases hstrobe : bankLevel s (bankOf w.toNat) = .strobe
      · exact (if_pos hstrobe).trans (if_pos hstrobe).symm
      · refine (if_neg hstrobe).trans (Eq.trans ?_ (if_neg hstrobe).symm)
        rw [← channelStateNum_setLockout_none]
        rfl
  · exact exec_event hstart rfl (if_neg hduty.not_ge)
  · have hlen : c.val < s.lamps.lockouts.length := by
      rw [hlaw.1]
      exact c.isLt
    have hdark := channelReady_setLockout_some k hlen
    refine ⟨darkenStrobes (setLockout c (some k) s), exec_event hstart rfl ((lockOut_judged k hduty).trans ?_), ?_,
      fun b => ?_, ?_, ?_, fun d hd => ?_⟩
    · cases k <;> rfl
    · rw [darkenStrobes_eq]
      rfl
    · rw [darkenStrobes_strobe, Option.map_map]
      rfl
    · rw [driveDuty_darkenStrobes, driveDuty, hdark]
      rfl
    · rw [strobeDuty_darkenStrobes, hdark]
      rfl
    · rw [driveDuty_darkenStrobes, driveDuty_setLockout_other _ _ fun h => hd (Fin.ext h)]

end Sys2Proof.Machine
end

section
/-! PROOFS of the family `other`: the arrivals at the turn sequencer and the ends of its motions (02 R25, R30 to R36,
R51), with what entering a state does to a sequencer that is known to stand elsewhere. -/
namespace Sys2Proof.Machine

/-! ### Arrivals -/

/-- The part with an input's line, last reading and debounced level at `active`. -/
def arrived (i : Input) (active : Bool) (s : State) : State :=
  { s with
    pins := { s.pins with inputs := s.pins.inputs.set i (lineAt (polarityOf s i) active) }
    seq := { s.seq with readings := s.seq.readings.set i active, levels := s.seq.levels.set i active } }

theorem arrived_eq (i : Input) (active : Bool) (s : State) : setLevel i active (lineArrives i active s) = arrived i active s :=
  rfl

theorem exec_arrival {c : Instr} {i : Input} {active : Bool} {s t : State} (hstart : s.start ≠ .held)
    (hexec : exec c s = .next (arrivalCommand i active s))
    (h : (if active then arrivesActive i (arrived i active s) else arrivesInactive i (arrived i active s)) = t) :
    exec c s = .next (idleBoundary (react t)) :=
  exec_event hstart hexec (congrArg react h)

/-- An arrival after which nothing follows. -/
theorem exec_arrival_away {c : Instr} {i : Input} {active : Bool} {s t : State} (hstart : s.start ≠ .held)
    (hexec : exec c s = .next (arrivalCommand i active s))
    (h : (if active then arrivesActive i (arrived i active s) else arrivesInactive i (arrived i active s)) = t)
    (haway : t.seq.state.isRest = false ∨ t.col.volState ≠ .scanning) : exec c s = .next (idleBoundary t) := by
  rw [exec_arrival hstart hexec h, haway.elim react_away react_still]

theorem completeManual_none {m : ManualMotion} {s : State} (h : s.seq.manual ≠ some m) : completeManual m s = s :=
  if_neg h

theorem completeManual_self {m : ManualMotion} {s : State} (h : s.seq.manual = some m) : completeManual m s =
    s.setSeq { s.seq with manual := none, manualLeft := 0, outputs := haltManual m s.seq.outputs } := by
  rw [completeManual, if_pos h, endManual, h]

/-! ### The moved marks (06 R126) -/

/-- The moved mark of a port, as the statements write it. -/
def movedMark (p : Port) : Port :=
  match p.state with
  | .idle => p
  | .armed => { p with armed := p.armed.map fun h => if h.watched && h.fired.isSome then { h with moved := true } else h }
  | .receiving => { p with frame := p.frame.map fun q => if p.armed.any Header.watched then { q with moved := true } else q }

theorem Port.platenRose_eq (p : Port) : p.platenRose = movedMark p := by
  obtain ⟨state, armed, waiting, frame, queue, frameNo, unsolicited, refused⟩ := p
  cases state with
  | idle => rfl
  | armed => rfl
  | receiving =>
    cases armed with
    | none => cases frame <;> rfl
    | some h =>
      cases hw : h.watched <;> cases frame <;> simp [Port.platenRose, movedMark, hw]

theorem platenRose_eq (s : State) :
    platenRose s = { s with ports := ⟨movedMark s.ports.left, movedMark s.ports.right⟩ } := by
  rw [platenRose, Port.platenRose_eq, Port.platenRose_eq]

/-! ### Arrivals to which no rule gives an effect (02 R25, R32) -/

theorem farArrives_pick {side : Side} {s : State} (h : s.seq.state = .pick) : farArrives side s =
    if side = sourceSide s then s.setSeq { s.seq with
      lastFar := some side, outputs := { s.seq.outputs with arm := .brake, vacuum := true, puff := true } }
    else s.setSeq { s.seq with lastFar := some side } := by
  simp only [farArrives, State.setSeq, h]
  rfl

theorem farArrives_carry {side : Side} {s : State} (h : s.seq.state = .carry) : farArrives side s =
    if side = destSide s then carryDone (s.setSeq { s.seq with lastFar := some side })
    else s.setSeq { s.seq with lastFar := some side } := by
  simp only [farArrives, State.setSeq, h]
  rfl

theorem farArrives_other {side : Side} {s : State} (hpick : ¬(s.seq.state = .pick ∧ side = sourceSide s))
    (hcarry : ¬(s.seq.state = .carry ∧ side = destSide s)) :
    farArrives side s = s.setSeq { s.seq with lastFar := some side } := by
  have hp : s.seq.state = .pick → side ≠ sourceSide s := fun h hs => hpick ⟨h, hs⟩
  have hc : s.seq.state = .carry → side ≠ destSide s := fun h hs => hcarry ⟨h, hs⟩
  cases hstate : s.seq.state with
  | pick => exact (farArrives_pick hstate).trans (if_neg (hp hstate))
  | carry => exact (farArrives_carry hstate).trans (if_neg (hc hstate))
  | stopped | present | platenDown | held | platenUp | lay | home | handWait | foldWait | panelHeld | fault =>
    simp only [farArrives, State.setSeq, hstate]

theorem contactArrives_other {side : Side} {s : State} (h : s.seq.state ≠ .present) : contactArrives side s = s :=
  if_neg h

theorem arrivesActive_home_other {s : State} (h : s.seq.state ≠ .home) (hm : s.seq.manual ≠ some .armHome) :
    arrivesActive .home s = s := by
  rw [arrivesActive, if_neg h, completeManual_none hm]

theorem arrivesActive_platenDown_other {s : State} (h : s.seq.state ≠ .platenDown)
    (hm : s.seq.manual ≠ some .platenDown) : arrivesActive .platenDown s = s := by
  rw [arrivesActive, if_neg h, completeManual_none hm]

theorem arrivesActive_platenUp_other {s : State} (h : s.seq.state ≠ .platenUp) (hm : s.seq.manual ≠ some .platenUp) :
    arrivesActive .platenUp s = platenRose s := by
  have hstate : (platenRose s).seq.state ≠ .platenUp := h
  have hmanual : (platenRose s).seq.manual ≠ some .platenUp := hm
  rw [arrivesActive]
  exact (congrArg _ (if_neg hstate)).trans (completeManual_none hmanual)

theorem arrivesActive_leafEdge_carry {s : State} (h : s.seq.state = .carry) : arrivesActive .leafEdge s =
    s.setSeq { s.seq with edges := if s.seq.edgesFixed then s.seq.edges else s.seq.edges + 1 } := by
  rw [arrivesActive]
  cases hfixed : s.seq.edgesFixed with
  | true => exact if_neg (by simp)
  | false => exact if_pos ⟨h, rfl⟩

theorem isRest_carry : SeqState.carry.isRest = false := rfl

/-- Settles O40. -/
theorem edgesAndReleases : Obligations.EdgesAndReleases := by
  intro s hstart
  simp only [arrived_eq]
  have released {c : Instr} {i : Input} (hexec : exec c s = .next (arrivalCommand i false s))
      (h : arrivesInactive i (arrived i false s) = arrived i false s) :
      exec c s = .next (idleBoundary (react (arrived i false s))) := exec_arrival hstart hexec h
  have ignored {c : Instr} {i : Input} (hexec : exec c s = .next (arrivalCommand i true s))
      (h : arrivesActive i (arrived i true s) = arrived i true s) :
      exec c s = .next (idleBoundary (react (arrived i true s))) := exec_arrival hstart hexec h
  refine ⟨fun hcarry => ⟨?_, ?_⟩, released rfl rfl, released rfl rfl, fun side => ⟨?_, ?_⟩, released rfl rfl,
    released rfl rfl, released rfl rfl, fun hhome hmanual => ignored rfl ?_, fun hcarry => ⟨ignored rfl ?_, ignored rfl ?_⟩,
    fun side hpick hcarry => ?_, fun hpresent side => ?_, fun hpick => ignored rfl (if_neg hpick),
    fun hlay => released rfl (if_neg hlay), fun hdown hmanual => ignored rfl ?_, ⟨platenRose_eq s, fun hup hmanual => ?_⟩,
    fun h => h.elim react_away react_still⟩
  · exact exec_arrival_away hstart rfl (arrivesActive_leafEdge_carry hcarry)
      (.inl ((congrArg SeqState.isRest hcarry).trans isRest_carry))
  · exact exec_arrival_away hstart rfl (if_pos hcarry) (.inl ((congrArg SeqState.isRest hcarry).trans isRest_carry))
  · cases side <;> exact released rfl rfl
  · cases side <;> exact released rfl rfl
  · exact arrivesActive_home_other hhome hmanual
  · exact if_neg hcarry
  · exact if_neg fun h => hcarry h.1
  · have h := farArrives_other (s := arrived (farInput side) true s) hpick hcarry
    cases side <;> exact exec_arrival hstart rfl h
  · have h := contactArrives_other (side := side) (s := arrived (contactInput side) true s) hpresent
    cases side <;> exact ignored rfl h
  · exact arrivesActive_platenDown_other hdown hmanual
  · exact exec_arrival hstart rfl (arrivesActive_platenUp_other hup hmanual)

end Sys2Proof.Machine
end

section
/-! PROOFS of the family `other`: what entering a state, a pause and a fault do (02 R26 to R36, R46, R47), and the
statements of the motions' ends. -/
namespace Sys2Proof.Machine

/-! ### States that show sides -/

/-- The states in which what is in view depends on p alone. -/
def SeqState.showsSides : SeqState → Bool
  | .stopped | .foldWait | .panelHeld => false
  | .present | .platenDown | .held | .platenUp | .pick | .carry | .lay | .home | .handWait | .fault => true

theorem SeqState.showsSides_iff (st : SeqState) :
    st.showsSides = true ↔ st ≠ .stopped ∧ st ≠ .foldWait ∧ st ≠ .panelHeld := by
  cases st <;> simp [SeqState.showsSides]

theorem Motion.state_showsSides (m : Motion) : m.state.showsSides = true := by cases m <;> rfl

theorem reseat_showsSides {q : Sequencer} {s : State} (hs : s.seq.state.showsSides = true) (hq : q.state.showsSides = true)
    (hp : q.p = s.seq.p) : reseat q s = s.setSeq q :=
  reseat_sides (s.seq.state.showsSides_iff.1 hs) (q.state.showsSides_iff.1 hq) hp

/-- From a state that shows sides and holds no opening to another that shows sides. -/
theorem goto_showsSides {s : State} {st : SeqState} (hs : s.seq.state.showsSides = true) (hheld : s.seq.state ≠ .held)
    (hst : st.showsSides = true) : goto st s = s.setSeq { s.seq with state := st } := by
  rw [goto_plain hheld (s.seq.state.showsSides_iff.1 hs).2.2,
    reseat_showsSides (q := { s.seq with state := st }) hs hst rfl]

theorem enterMotion_showsSides {s : State} (m : Motion) (d : Outputs → Outputs) (hs : s.seq.state.showsSides = true)
    (hheld : s.seq.state ≠ .held) : enterMotion m d s = s.setSeq { s.seq with
      state := m.state, motionLeft := motionLimit s m, outputs := d s.seq.outputs } := by
  rw [enterMotion, goto_showsSides hs hheld m.state_showsSides]
  rfl

/-- Leaving HELD or PANEL_HELD with both channels at rest ends both visits and the hold. -/
theorem goto_leaves {s : State} {st : SeqState} (hs : s.seq.state = .held ∨ s.seq.state = .panelHeld)
    (hst : s.seq.state ≠ st) (hrest : bothAtRest s = true) : goto st s =
      reseat { s.seq with state := st, hold := false, holdGiven := false, waiting := false }
        { s with chans := both .afterReset } := by
  have hleaving : ((s.seq.state == .held || s.seq.state == .panelHeld) && s.seq.state != st) = true := by
    rcases hs with hs | hs <;> simp_all
  simp only [goto, hleaving, if_true, Bool.not_true, Bool.and_false, endVisits_rest hrest]

/-! ### Notices beside the rest of the state -/

/-- A raise does not look beyond the volume's presence and the clock. -/
theorem raise_beside {src : Source} {detail : List Slot} {s : State} {col : Collation} {q : Sequencer}
    {chans : Both Channel} (h : col.volState = .empty ↔ s.col.volState = .empty) :
    raise src detail { s with col := col, seq := q, chans := chans } =
      { raise src detail s with col := col, seq := q, chans := chans } := by
  simp only [raise, noticeStamp, h]

/-! ### A pause and a fault of a SCANNING volume -/

theorem pauseVolume_rest {cause : PauseCause} {s : State} (hscan : s.col.volState = .scanning)
    (hrest : bothAtRest s = true) : pauseVolume cause s = raise .paused [slot cause.num] { s with
      col := { s.col with volState := .paused }
      seq := { s.seq with pendingPause := none, hold := false, waiting := false } } := by
  rw [pauseVolume, if_pos hscan, withdrawHold_rest hrest]
  rfl

/-- The part in FAULT with its record, every drive braked and the volume PAUSED. -/
def faulted (r : FaultRecord) (s : State) : State :=
  { s with
    col := { s.col with volState := .paused }
    seq := { s.seq with
      state := .fault, pendingPause := none, hold := false, waiting := false, fault := some r
      outputs := s.seq.outputs.brakeAll } }

theorem enterFault_showsSides {r : FaultRecord} {s : State} (hs : s.seq.state.showsSides = true)
    (hheld : s.seq.state ≠ .held) (hscan : s.col.volState = .scanning) (hrest : bothAtRest s = true) :
    enterFault r s = raise .paused [2] (faulted r s) := by
  rw [enterFault, goto_showsSides (s := brakeEvery s) hs hheld rfl]
  exact pauseVolume_rest (cause := .fault) hscan hrest

/-- A fault raised before the volume is PAUSED. -/
theorem faulted_raise {r : FaultRecord} {src : Source} {detail : List Slot} {s : State}
    (hscan : s.col.volState = .scanning) : faulted r (raise src detail s) = raise src detail (faulted r s) := by
  refine Eq.symm (raise_beside (chans := s.chans) ?_)
  simp [hscan]

theorem motionFault_showsSides {m : Motion} {cause : FaultCause} {s : State} (hs : s.seq.state.showsSides = true)
    (hheld : s.seq.state ≠ .held) (hscan : s.col.volState = .scanning) (hrest : bothAtRest s = true) :
    motionFault m cause s = raise .paused [2] (raise .motionFault [slot m.num, slot cause.num, slot s.seq.p]
      (faulted ⟨m, cause, (turnOfMotion s).map (·.leaf), owedAt s m, .none⟩ s)) := by
  rw [motionFault, enterFault_showsSides (s := raise _ _ s) hs hheld hscan hrest, faulted_raise hscan]

theorem doubleFault_showsSides {s : State} (hs : s.seq.state.showsSides = true)
    (hheld : s.seq.state ≠ .held) (hscan : s.col.volState = .scanning) (hrest : bothAtRest s = true) :
    doubleFault s = raise .paused [2] (raise .doubleTurn
      [slot (((turnOfMotion s).map (·.leaf)).getD s.seq.p), slot s.seq.edges]
      (faulted ⟨.lay, .doubleTurn, (turnOfMotion s).map (·.leaf), some (turnDir s), .none⟩ s)) := by
  rw [doubleFault, enterFault_showsSides (s := raise _ _ s) hs hheld hscan hrest, faulted_raise hscan]

/-- The turn that a motion belongs to, by its kind. -/
theorem turnOfMotion_eq (s : State) : turnOfMotion s =
    if s.seq.kind = some .machineTurn ∨ s.seq.kind = some .handRaise then s.seq.turn else none := by
  rw [turnOfMotion]
  cases s.seq.kind with
  | none => rfl
  | some k => cases k <;> rfl

theorem owedAt_eq (s : State) (m : Motion) : owedAt s m =
    if m = .home ∨ m = .present ∨ m = .platenDown then none else (turnOfMotion s).map (·.dir) := by
  cases m <;> rfl

end Sys2Proof.Machine
end

section
/-! PROOFS of the family `other`: the ends of motions and the platen lifted off (02 R30, R33, R34, R36, R51). -/
namespace Sys2Proof.Machine

/-! ### A motion that outlasts its limit -/

theorem SeqState.motion_eq_some {st : SeqState} {m : Motion} (h : st.motion = some m) : st = m.state := by
  cases st <;> cases m <;> simp_all [SeqState.motion, Motion.state]

theorem Motion.state_ne_held (m : Motion) : m.state ≠ .held := by cases m <;> simp [Motion.state]

theorem expireMotion_none {s : State} (h : s.seq.state.motion = none) : expireMotion s = s := by
  simp only [expireMotion, h]

/-- Of every motion but PICK and the double LAY the end is the fault TIMEOUT. -/
theorem expireMotion_timeout {s : State} {m : Motion} (h : s.seq.state.motion = some m) (hpick : m ≠ .pick)
    (hlay : m = .lay → s.seq.double = false) : expireMotion s = motionFault m .timeout s := by
  cases m with
  | pick => exact absurd rfl hpick
  | lay => simp only [expireMotion, h, hlay rfl]; rfl
  | present | platenDown | platenUp | carry | home => simp only [expireMotion, h]

theorem expireMotion_pick {s : State} (h : s.seq.state = .pick) : expireMotion s = mispick .pick s := by
  simp only [expireMotion, h, SeqState.motion]

theorem expireMotion_double {s : State} (h : s.seq.state = .lay) (hdouble : s.seq.double = true) :
    expireMotion s = doubleFault (raise .motionFault [5, 0, slot s.seq.p] s) := by
  simp only [expireMotion, h, SeqState.motion, hdouble, if_true]
  rfl

/-- PICK entered away from the source far position: the arm is driven there (02 R31). -/
theorem enterPick_toward {s : State} (hs : s.seq.state.showsSides = true) (hheld : s.seq.state ≠ .held)
    (hfar : s.seq.levels.get (farInput (sourceSide s)) = false) (hvac : s.seq.levels.vacuumGood = false) :
    enterPick s = s.setSeq { s.seq with
      state := .pick, motionLeft := motionLimit s .pick
      outputs := { s.seq.outputs with arm := armToward (sourceSide s) } } := by
  have hdrive : drivePick s = s.setSeq { s.seq with
      state := .pick, motionLeft := motionLimit s .pick
      outputs := { s.seq.outputs with arm := armToward (sourceSide s) } } := by
    rw [drivePick, if_neg (by simp [hfar]), enterMotion_showsSides .pick _ hs hheld]
    rfl
  rw [enterPick, hdrive]
  exact if_neg (by simp [hvac])

theorem mispick_fault {s : State} {m : Motion} (h : s.settings.pickRetries ≤ s.seq.retries) :
    mispick m s = motionFault m .mispick (dropLeaf s) := if_neg (Nat.not_lt.2 h)

/-- The part with its leaf dropped and one more retry counted (02 R33). -/
def dropped (s : State) : State :=
  s.setSeq { s.seq with
    retries := s.seq.retries + 1
    outputs := { s.seq.outputs with vacuum := false, puff := false, arm := .brake } }

theorem mispick_retry {s : State} {m : Motion} (h : s.seq.retries < s.settings.pickRetries) :
    mispick m s = enterPick (dropped s) := if_pos h

/-! ### Manual motions -/

theorem endManual_some {s : State} {m : ManualMotion} (h : s.seq.manual = some m) : endManual s =
    s.setSeq { s.seq with manual := none, manualLeft := 0, outputs := haltManual m s.seq.outputs } := by
  rw [endManual, h]

theorem expireManual_liftsDown {s : State} (h : s.seq.manual = some .liftsDown) : expireManual s =
    s.setSeq { s.seq with manual := none, manualLeft := 0, outputs := haltManual .liftsDown s.seq.outputs } := by
  rw [expireManual, h]
  exact endManual_some h

theorem expireManual_fault {s : State} {m : ManualMotion} (h : s.seq.manual = some m) (hm : m ≠ .liftsDown) :
    expireManual s = raise .motionFault [slot m.num, 0, slot s.seq.p]
      (s.setSeq { s.seq with manual := none, manualLeft := 0, outputs := haltManual m s.seq.outputs }) := by
  have hend := endManual_some h
  cases m with
  | liftsDown => exact absurd rfl hm
  | platenUp | platenDown | armHome => simp only [expireManual, h, hend]; rfl

/-- Settles O43. -/
theorem motionsRunOut : Obligations.MotionsRunOut := by
  intro s hstart
  refine ⟨fun hnone => ?_, fun m hm hpick hlay hscan hrest => ?_, fun turn hlay hdouble hkind hturn hscan hrest => ?_,
    fun hpick hscan hrest => ⟨fun hspent => ?_, fun hleft hfar hvac => ?_⟩, fun hnone => ?_, fun h => ?_, fun h => ?_,
    fun h => ?_, fun h => ?_⟩
  · exact exec_event hstart rfl (expireMotion_none hnone)
  · have hstate := SeqState.motion_eq_some hm
    refine exec_event hstart rfl ((expireMotion_timeout hm hpick hlay).trans ?_)
    rw [motionFault_showsSides (hstate ▸ m.state_showsSides) (hstate ▸ m.state_ne_held) hscan hrest, turnOfMotion_eq,
      owedAt_eq, turnOfMotion_eq]
    rfl
  · have hof : turnOfMotion s = some turn := by simp [turnOfMotion_eq, hkind, hturn]
    have hdir : turnDir s = turn.dir := by simp [turnDir, hturn]
    refine exec_event hstart rfl ((expireMotion_double hlay hdouble).trans ?_)
    rw [doubleFault_showsSides (s := raise _ _ s) (hlay ▸ rfl) (hlay ▸ nofun) hscan hrest, faulted_raise hscan,
      show turnOfMotion (raise _ _ s) = some turn from hof, show turnDir (raise _ _ s) = turn.dir from hdir]
    rfl
  · refine exec_event hstart rfl ((expireMotion_pick hpick).trans ((mispick_fault hspent).trans ?_))
    rw [motionFault_showsSides (s := dropLeaf s) (hpick ▸ rfl) (hpick ▸ nofun) hscan hrest,
      show turnOfMotion (dropLeaf s) = turnOfMotion s from rfl, show owedAt (dropLeaf s) _ = owedAt s _ from rfl,
      turnOfMotion_eq, owedAt_eq, turnOfMotion_eq]
    rfl
  · refine exec_event hstart rfl ((expireMotion_pick hpick).trans ((mispick_retry hleft).trans ?_))
    refine (enterPick_toward (s := dropped s) (congrArg SeqState.showsSides hpick) (hpick ▸ nofun) hfar hvac).trans ?_
    rw [← hpick]
    rfl
  · exact exec_event hstart rfl (by rw [expireManual, hnone])
  · exact exec_event hstart rfl (expireManual_fault h nofun)
  · exact exec_event hstart rfl (expireManual_fault h nofun)
  · exact exec_event hstart rfl (expireManual_fault h nofun)
  · exact exec_event hstart rfl (expireManual_liftsDown h)

/-! ### Withdrawing the hold (02 R35, 05 R109) -/

/-- A channel between two shots, as a statement writes it. -/
def Channel.between (c : Channel) : Channel := { c with state := .idle, gate := none, kept := none, timeout := none }

theorem withdrawChannel_working {b : Side} {s : State} (harming : (s.chan b).state ≠ .arming)
    (hgating : (s.chan b).state ≠ .gating) : withdrawChannel b s = s := by
  rw [withdrawChannel]
  cases h : (s.chan b).state with
  | arming => exact absurd h harming
  | gating => exact absurd h hgating
  | idle | firing | awaiting | done => rfl

/-- A channel whose header waits for its gate takes it back. -/
theorem withdrawChannel_gating {b : Side} {s : State} (hgating : (s.chan b).state = .gating)
    (harmed : (s.port b).state = .armed) : withdrawChannel b s =
      (s.setPort b { s.port b with state := .idle, armed := none }).setChan b (s.chan b).between := by
  have hback : (s.port b).takeBack = { s.port b with state := .idle, armed := none } := by rw [Port.takeBack, harmed]
  rw [withdrawChannel, hback, hgating]
  rfl

/-- The part with the hold taken from it. -/
def unheld (s : State) : State := s.setSeq { s.seq with hold := false, waiting := false }

/-- The part with the header of bank `b` taken back from its port `p` and its channel `c`. -/
def takenBack (b : Side) (p : Port) (c : Channel) (s : State) : State :=
  { s with ports := s.ports.set b { p with state := .idle, armed := none }, chans := s.chans.set b c.between }

theorem withdrawHold_working {s : State} (h : ∀ b, (s.chan b).state ≠ .arming ∧ (s.chan b).state ≠ .gating) :
    withdrawHold s = unheld s := by
  have hleft : withdrawChannel .left (unheld s) = unheld s := withdrawChannel_working (h .left).1 (h .left).2
  have hright : withdrawChannel .right (unheld s) = unheld s := withdrawChannel_working (h .right).1 (h .right).2
  exact (congrArg (withdrawChannel .right) hleft).trans hright

theorem chan_takenBack_other {b : Side} {p : Port} {c : Channel} {s : State} :
    (takenBack b p c s).chan b.other = s.chan b.other := by
  cases b <;> rfl

theorem withdrawHold_gating {b : Side} {p : Port} {c : Channel} {s : State} (hport : s.port b = p)
    (hchan : s.chan b = c) (hgating : c.state = .gating) (harmed : p.state = .armed)
    (hother : (s.chan b.other).state ≠ .arming ∧ (s.chan b.other).state ≠ .gating) :
    withdrawHold s = takenBack b p c (unheld s) := by
  subst hport hchan
  have hself : withdrawChannel b (unheld s) = takenBack b (s.port b) (s.chan b) (unheld s) :=
    withdrawChannel_gating hgating harmed
  have hafter : withdrawChannel b.other (takenBack b (s.port b) (s.chan b) (unheld s)) =
      takenBack b (s.port b) (s.chan b) (unheld s) := by
    refine withdrawChannel_working ?_ ?_ <;> rw [chan_takenBack_other]
    · exact hother.1
    · exact hother.2
  cases b with
  | left => exact (congrArg (withdrawChannel .right) hself).trans hafter
  | right =>
    have hbefore : withdrawChannel .left (unheld s) = unheld s := withdrawChannel_working hother.1 hother.2
    exact (congrArg (withdrawChannel .right) hbefore).trans hself

theorem Channel.atRest_iff (c : Channel) : c.atRest = true ↔ c.state = .idle ∨ c.state = .done := by
  simp [Channel.atRest]

/-- A channel at rest has no header to take back. -/
theorem Channel.atRest_ne {c : Channel} (h : c.atRest = true) : c.state ≠ .arming ∧ c.state ≠ .gating := by
  rcases c.atRest_iff.1 h with h | h <;> simp [h]

theorem Channel.atRest_working {c : Channel} (h : c.state = .firing ∨ c.state = .awaiting) : c.atRest = false := by
  rcases h with h | h <;> simp [Channel.atRest, h]

theorem bothAtRest_iff (s : State) : bothAtRest s = true ↔ ∀ b, (s.chan b).atRest = true := by
  rw [bothAtRest, Bool.and_eq_true]
  exact ⟨fun ⟨hl, hr⟩ b => by cases b <;> assumption, fun h => ⟨h .left, h .right⟩⟩

theorem bothAtRest_takenBack (b : Side) (p : Port) (c : Channel) (s : State) :
    bothAtRest (takenBack b p c s) = (s.chan b.other).atRest := by
  cases b with
  | left => rfl
  | right => exact Bool.and_true _

/-! ### The reaction in HELD (02 R36) -/

/-- With no hold and the channels at rest the opening has slipped. -/
theorem react_unheld {s : State} (hheld : s.seq.state = .held) (hscan : s.col.volState = .scanning)
    (hhold : s.seq.hold = false) :
    react s = if bothAtRest s then motionFault .platenDown .slipped s else s := by
  have hout : isHeld s = false := by simp [isHeld, hhold]
  simp only [react, offerBoth_out hout, reactSeq, hscan, if_true, hheld, reactHeld, hhold, Bool.not_false]

theorem react_unheld_working {s : State} (hheld : s.seq.state = .held) (hscan : s.col.volState = .scanning)
    (hhold : s.seq.hold = false) (hrest : bothAtRest s = false) : react s = s :=
  (react_unheld hheld hscan hhold).trans (if_neg (Bool.eq_false_iff.1 hrest))

/-- The part slipped, the volume still SCANNING. -/
def slid (s : State) : State :=
  { raise .motionFault [1, 3, slot s.seq.p] s with
    chans := both .afterReset
    seq := { s.seq with
      state := .fault, hold := false, holdGiven := false, waiting := false
      fault := some ⟨.platenDown, .slipped, none, none, .none⟩
      outputs := s.seq.outputs.brakeAll } }

/-- The slip fault with the channels at rest and no sequence in flight. -/
theorem react_slipped {s : State} (hheld : s.seq.state = .held) (hscan : s.col.volState = .scanning)
    (hhold : s.seq.hold = false) (hrest : bothAtRest s = true) (hkind : s.seq.kind = none) : react s =
      raise .paused [2] (raise .motionFault [1, 3, slot s.seq.p] { s with
        col := { s.col with volState := .paused }
        chans := both .afterReset
        seq := { s.seq with
          state := .fault, pendingPause := none, hold := false, holdGiven := false, waiting := false
          fault := some ⟨.platenDown, .slipped, none, none, .none⟩
          outputs := s.seq.outputs.brakeAll } }) := by
  have hturn : turnOfMotion s = none := by simp [turnOfMotion_eq, hkind]
  have hgoto : goto .fault (brakeEvery (raise .motionFault [1, 3, slot s.seq.p] s)) =
      ({ raise .motionFault [1, 3, slot s.seq.p] s with chans := both .afterReset } : State).setSeq { s.seq with
        state := .fault, hold := false, holdGiven := false, waiting := false
        outputs := s.seq.outputs.brakeAll } := by
    refine (goto_leaves (s := brakeEvery (raise _ _ s)) (st := .fault) (.inl hheld) ?_ hrest).trans ?_
    · exact fun h => nomatch h.symm.trans hheld
    · exact reseat_showsSides (congrArg SeqState.showsSides hheld) rfl rfl
  rw [react_unheld hheld hscan hhold, if_pos hrest, motionFault, hturn]
  have hslid : enterFault ⟨.platenDown, .slipped, none, none, .none⟩ (raise .motionFault [1, 3, slot s.seq.p] s) =
      pauseVolume .fault (slid s) :=
    congrArg (fun t : State => pauseVolume .fault (t.setSeq { t.seq with fault := _ })) hgoto
  refine hslid.trans ((pauseVolume_rest (cause := .fault) (s := slid s) hscan rfl).trans ?_)
  exact congrArg (raise .paused [2]) (Eq.symm (raise_beside (by simp [hscan])))

/-- Nothing follows an event outside HELD and PANEL_HELD with no pause to take. -/
theorem react_quiet {s : State} (hheld : s.seq.state ≠ .held) (hpanel : s.seq.state ≠ .panelHeld)
    (h : s.seq.pendingPause = none ∨ s.seq.state.isRest = false) : react s = s := by
  rcases h with hnone | haway
  · have htake : takePause s = s := by rw [takePause, hnone]
    cases hstate : s.seq.state with
    | held => exact absurd hstate hheld
    | panelHeld => exact absurd hstate hpanel
    | handWait => rw [react_waits (.inl hstate), htake, ite_self]
    | foldWait => rw [react_waits (.inr hstate), htake, ite_self]
    | stopped | present | platenDown | platenUp | pick | carry | lay | home | fault =>
      exact react_away (by rw [hstate]; rfl)
  · exact react_away haway

/-! ### The platen lifted off -/

theorem platenLifted_scanning {s : State} (hheld : s.seq.state = .held) (hscan : s.col.volState = .scanning) :
    platenLifted s = withdrawHold s := by
  simp only [platenLifted, hheld, if_true, hscan]

theorem platenLifted_paused {s : State} (hheld : s.seq.state = .held) (hpaused : s.col.volState = .paused) :
    platenLifted s = s.setSeq { s.seq with disturbed := true } := by
  simp only [platenLifted, hheld, if_true, hpaused]

/-- The platen lifted off a held opening, by what the withdrawal of the hold leads to. -/
theorem exec_platenLifted {s t : State} (hstart : s.start ≠ .held) (hheld : s.seq.state = .held)
    (hscan : s.col.volState = .scanning) (h : react (withdrawHold (arrived .platenDown false s)) = t) :
    exec .platenDownRelease s = .next (idleBoundary t) :=
  h ▸ exec_arrival hstart rfl (platenLifted_scanning (s := arrived .platenDown false s) hheld hscan)

theorem withdrawn_working {s : State} (hheld : s.seq.state = .held) (hscan : s.col.volState = .scanning)
    (hwork : ∀ b, (s.chan b).state ≠ .arming ∧ (s.chan b).state ≠ .gating) (hrest : bothAtRest s = false) :
    react (withdrawHold s) = unheld s := by
  rw [withdrawHold_working hwork, react_unheld_working (s := unheld s) hheld hscan rfl hrest]

/-- The part in FAULT after a slip, every drive braked. -/
def slipped (s : State) : State :=
  raise .paused [2] (raise .motionFault [1, 3, slot s.seq.p] { s with
    col := { s.col with volState := .paused }
    chans := both .afterReset
    seq := { s.seq with
      state := .fault, pendingPause := none, hold := false, holdGiven := false, waiting := false
      fault := some ⟨.platenDown, .slipped, none, none, .none⟩
      outputs := s.seq.outputs.brakeAll } })

theorem withdrawn_slipped {s : State} (hheld : s.seq.state = .held) (hscan : s.col.volState = .scanning)
    (hrest : bothAtRest s = true) (hkind : s.seq.kind = none) : react (withdrawHold s) = slipped s := by
  rw [withdrawHold_working fun b => Channel.atRest_ne ((bothAtRest_iff s).1 hrest b)]
  exact react_slipped (s := unheld s) hheld hscan rfl hrest hkind

theorem withdrawn_gating_slipped {b : Side} {p : Port} {c : Channel} {s : State} (hport : s.port b = p)
    (hchan : s.chan b = c) (hheld : s.seq.state = .held) (hscan : s.col.volState = .scanning)
    (hgating : c.state = .gating) (harmed : p.state = .armed) (hother : (s.chan b.other).atRest = true)
    (hkind : s.seq.kind = none) :
    react (withdrawHold s) = slipped { s with ports := s.ports.set b { p with state := .idle, armed := none } } := by
  have hrest : bothAtRest (takenBack b p c (unheld s)) = true := (bothAtRest_takenBack b p c _).trans hother
  rw [withdrawHold_gating hport hchan hgating harmed (Channel.atRest_ne hother)]
  exact react_slipped (s := takenBack b p c (unheld s)) hheld hscan rfl hrest hkind

theorem withdrawn_gating_working {b : Side} {p : Port} {c : Channel} {s : State} (hport : s.port b = p)
    (hchan : s.chan b = c) (hheld : s.seq.state = .held) (hscan : s.col.volState = .scanning)
    (hgating : c.state = .gating) (harmed : p.state = .armed)
    (hother : (s.chan b.other).state = .firing ∨ (s.chan b.other).state = .awaiting) :
    react (withdrawHold s) = takenBack b p c (unheld s) := by
  have hwork : (s.chan b.other).state ≠ .arming ∧ (s.chan b.other).state ≠ .gating := by
    rcases hother with h | h <;> simp [h]
  have hrest : bothAtRest (takenBack b p c (unheld s)) = false :=
    (bothAtRest_takenBack b p c _).trans (Channel.atRest_working hother)
  rw [withdrawHold_gating hport hchan hgating harmed hwork,
    react_unheld_working (s := takenBack b p c (unheld s)) hheld hscan rfl hrest]

/-- Settles O42. -/
theorem thePlatenLeavesTheOpening : Obligations.ThePlatenLeavesTheOpening := by
  intro s hstart
  simp only [arrived_eq]
  refine ⟨fun hheld hpaused => ?_, fun hheld hscan hwork hrest => ?_,
    fun hheld hscan => ⟨fun hrest hkind => ?_, fun b hgating harmed => ⟨fun hother hkind => ?_, fun hother => ?_⟩⟩,
    fun hheld => ?_, fun hheld hpanel hquiet => ?_⟩
  · exact exec_arrival_away hstart rfl (platenLifted_paused (s := arrived .platenDown false s) hheld hpaused)
      (.inr (hpaused ▸ nofun))
  · exact exec_platenLifted hstart hheld hscan
      (withdrawn_working (s := arrived .platenDown false s) hheld hscan hwork hrest)
  · exact exec_platenLifted hstart hheld hscan
      (withdrawn_slipped (s := arrived .platenDown false s) hheld hscan hrest hkind)
  · exact exec_platenLifted hstart hheld hscan
      (withdrawn_gating_slipped (s := arrived .platenDown false s) (p := s.port b) (c := s.chan b) rfl rfl hheld hscan
        hgating harmed hother hkind)
  · exact exec_platenLifted hstart hheld hscan
      (withdrawn_gating_working (s := arrived .platenDown false s) (p := s.port b) (c := s.chan b) rfl rfl hheld hscan
        hgating harmed hother)
  · exact exec_arrival (t := arrived .platenDown false s) hstart rfl (if_neg hheld)
  · rw [exec_arrival (t := arrived .platenDown false s) hstart rfl (if_neg hheld)]
    exact congrArg (fun t => Host.Outcome.next (idleBoundary t))
      (react_quiet (s := arrived .platenDown false s) hheld hpanel hquiet)

end Sys2Proof.Machine
end

section
/-! PROOFS of the family `other`: manual motions, START, and entering the motions of a sequence (02 R31, R45, R51). -/
namespace Sys2Proof.Machine

/-! ### Entering motions, one after another -/

/-- A replacement that leaves the view does not show in the next one. -/
theorem reseat_of_inView {q r : Sequencer} {s : State} (h : ∀ b, inView (s.setSeq q) b = inView s b) :
    reseat r (s.setSeq q) = reseat r s := by
  simp only [reseat, clearCuts, h]
  rfl

/-- Nothing is in view while the sequencer is STOPPED. -/
theorem inView_stopped {s : State} (h : s.seq.state = .stopped) (b : Side) : inView s b = none := by
  simp only [inView, h]

theorem inView_setSeq {q r : Sequencer} {s : State} (hp : r.p = q.p) (hq : q.state.showsSides = true)
    (hr : r.state.showsSides = true) (b : Side) : inView (s.setSeq r) b = inView (s.setSeq q) b :=
  inView_sides (s := s.setSeq q) (t := s.setSeq r) rfl hp (q.state.showsSides_iff.1 hq) (r.state.showsSides_iff.1 hr) b

theorem enterMotion_reseat {q : Sequencer} {s : State} (m : Motion) (d : Outputs → Outputs)
    (hq : q.state.showsSides = true) (hheld : q.state ≠ .held) : enterMotion m d (reseat q s) =
      reseat { q with state := m.state, motionLeft := motionLimit s m, outputs := d q.outputs } s := by
  rw [enterMotion_plain (s := reseat q s) hheld (q.state.showsSides_iff.1 hq).2.2]
  exact reseat_reseat (inView_setSeq rfl hq m.state_showsSides)

theorem endVisits_seq (s : State) : (endVisits s).seq = s.seq := by
  have hone (b : Side) (t : State) : (endVisit b t).seq = t.seq := by
    rw [endVisit]
    split <;> rfl
  rw [endVisits, hone, hone]

/-- Entering a state does not touch the debounced levels. -/
theorem enterMotion_levels (m : Motion) (d : Outputs → Outputs) (s : State) :
    (enterMotion m d s).seq.levels = s.seq.levels := by
  simp only [enterMotion, goto, State.setSeq]
  refine Eq.trans (b := (if _ then endVisits s else s).seq.levels) rfl ?_
  split
  · rw [endVisits_seq]
  · rfl

/-- Whether a sequence that raises the platen belongs to a turn. -/
def SeqKind.isTurn (k : SeqKind) : Bool := k == .machineTurn || k == .handRaise

/-- The part with a sequence begun, the platen not yet driven (02 R31, R33). -/
def raising (k : SeqKind) (s : State) : State :=
  s.setSeq { s.seq with kind := some k, retries := if k.isTurn then 0 else s.seq.retries }

/-- The outputs of PLATEN_UP: a turn lowers both lifts. -/
def raiseDrive (k : SeqKind) (o : Outputs) : Outputs :=
  { o with platen := .up, lifts := if k.isTurn then both .lower else o.lifts }

theorem enterPlatenUp_eq (k : SeqKind) (s : State) : enterPlatenUp k s =
    if s.seq.levels.platenUp then platenUpDone (enterMotion .platenUp (raiseDrive k) (raising k s))
    else enterMotion .platenUp (raiseDrive k) (raising k s) := by
  have hlevels := enterMotion_levels .platenUp (raiseDrive k) (raising k s)
  refine Eq.trans (b := if (enterMotion .platenUp (raiseDrive k) (raising k s)).seq.levels.platenUp then
    platenUpDone (enterMotion .platenUp (raiseDrive k) (raising k s))
    else enterMotion .platenUp (raiseDrive k) (raising k s)) rfl ?_
  rw [hlevels]
  rfl

theorem enterPlatenUp_below {k : SeqKind} {s : State} (h : s.seq.levels.platenUp = false) :
    enterPlatenUp k s = enterMotion .platenUp (raiseDrive k) (raising k s) := by
  rw [enterPlatenUp_eq, h, if_neg nofun]

theorem enterPlatenUp_above {k : SeqKind} {s : State} (h : s.seq.levels.platenUp = true) :
    enterPlatenUp k s = platenUpDone (enterMotion .platenUp (raiseDrive k) (raising k s)) := by
  rw [enterPlatenUp_eq, h, if_pos rfl]

theorem platenUpDone_restore {s : State} (h : s.seq.kind = some .restore) :
    platenUpDone s = enterHome (s.setOutputs { s.seq.outputs with platen := .off }) := by
  simp only [platenUpDone, State.setOutputs, h]

theorem enterHome_away {s : State} (h : s.seq.levels.home = false) :
    enterHome s = enterMotion .home (fun o => { o with arm := towardSpine s }) s :=
  if_neg (Bool.eq_false_iff.1 ((congrArg _ (enterMotion_levels ..)).trans h))

/-! ### MOVE and RELEASE VACUUM (02 R51) -/

theorem disturb_eq (s : State) :
    disturb s = s.setSeq { s.seq with disturbed := s.seq.disturbed || s.col.volState == .paused } := by
  rw [disturb]
  split
  next h => simp [h]
  next h =>
    have : (s.col.volState == .paused) = false := by simpa using h
    simp [this, State.setSeq]

theorem startManual_there {m : ManualMotion} {s : State} (h : manualThere s m = true) : startManual m s =
    s.setSeq { s.seq with
      manual := none, manualLeft := 0, outputs := haltManual m (driveManual m (towardSpine s) s.seq.outputs) } := by
  rw [startManual, if_pos (by cases m <;> exact h)]
  rfl

theorem startManual_away {m : ManualMotion} {s : State} (h : manualThere s m = false) : startManual m s =
    s.setSeq { s.seq with
      manual := some m, manualLeft := motionLimit s m.motion
      outputs := driveManual m (towardSpine s) s.seq.outputs } := by
  rw [startManual, if_neg (by cases m <;> exact Bool.eq_false_iff.1 h)]

theorem moveRule_busy {w : Slot} {m : ManualMotion} {s : State} (hvol : s.col.volState ≠ .scanning)
    (hm : manualOf w = some m) (hmanual : s.seq.manual ≠ none) : moveRule [w] s = ⟨.busy, [], s⟩ := by
  simp [moveRule, hvol, hm, Option.isSome_iff_ne_none.2 hmanual, refuse]

/-- An accepted MOVE ends at once where its input stands at its level. -/
theorem moveRule_ok {w : Slot} {m : ManualMotion} {s : State} (hvol : s.col.volState ≠ .scanning)
    (hm : manualOf w = some m) (hmanual : s.seq.manual = none) : moveRule [w] s = ⟨.ok, [],
      if manualThere s m then s.setSeq { s.seq with
        disturbed := s.seq.disturbed || s.col.volState == .paused, manual := none, manualLeft := 0
        outputs := haltManual m (driveManual m (towardSpine s) s.seq.outputs) }
      else s.setSeq { s.seq with
        disturbed := s.seq.disturbed || s.col.volState == .paused, manual := some m
        manualLeft := motionLimit s m.motion, outputs := driveManual m (towardSpine s) s.seq.outputs }⟩ := by
  have hrule : moveRule [w] s = ⟨.ok, [], disturb (startManual m s)⟩ := by
    simp [moveRule, hvol, hm, hmanual]
  rw [hrule, disturb_eq]
  cases hthere : manualThere s m with
  | true => rw [startManual_there hthere]; rfl
  | false => rw [startManual_away hthere]; rfl

theorem SeqState.motion_none {st : SeqState} (h : st.motion = none) :
    st ≠ .platenUp ∧ st ≠ .platenDown ∧ st ≠ .home := by
  cases st <;> simp_all [SeqState.motion]

/-- Settles O21. -/
theorem manualMotions : Obligations.ManualMotions := by
  intro tag s htakes hvol
  simp only [arrived_eq]
  have moved {w : Slot} {m : ManualMotion} {a : Answer} (hm : manualOf w = some m) (hmanual : s.seq.manual = none)
      (ha : _ = a) := exec_answers (c := .move tag [w]) (a := a) htakes rfl ((moveRule_ok hvol hm hmanual).trans ha)
  refine ⟨exec_answers htakes rfl ?_, fun w m hm => ⟨fun hbusy => ?_, fun hnone => ⟨?_, ?_, ?_, ?_⟩⟩,
    fun hstart hmotion => ⟨fun hup => ?_, fun hdown => ?_, fun hhome => ?_⟩⟩
  · rw [releaseRule, if_neg hvol, if_neg (by simp), disturb_eq]
    rfl
  · exact exec_answers htakes rfl (moveRule_busy hvol hm hbusy)
  · rintro rfl
    split
    next h => exact moved hm hnone (by rw [if_pos (by exact h)]; rfl)
    next h => exact moved hm hnone (by rw [if_neg (by exact h)]; rfl)
  · rintro rfl
    split
    next h => exact moved hm hnone (by rw [if_pos (by exact h)]; rfl)
    next h => exact moved hm hnone (by rw [if_neg (by exact h)]; rfl)
  · rintro rfl
    split
    next h => exact moved hm hnone (by rw [if_pos (by exact h)]; rfl)
    next h => exact moved hm hnone (by rw [if_neg (by exact h)]; rfl)
  · rintro rfl
    exact moved hm hnone (by rw [if_neg (by exact nofun)]; rfl)
  all_goals obtain ⟨hnotUp, hnotDown, hnotHome⟩ := SeqState.motion_none hmotion
  · refine exec_arrival_away hstart rfl ?_ (.inr hvol)
    rw [if_pos rfl, arrivesActive, if_neg (by exact hnotUp)]
    exact completeManual_self hup
  · refine exec_arrival_away hstart rfl ?_ (.inr hvol)
    rw [if_pos rfl, arrivesActive, if_neg (by exact hnotDown)]
    exact completeManual_self hdown
  · refine exec_arrival_away hstart rfl ?_ (.inr hvol)
    rw [if_pos rfl, arrivesActive, if_neg (by exact hnotHome)]
    exact completeManual_self hhome

/-! ### START (02 R45) -/

/-- The part SCANNING, the volume clock started. -/
def scanStarted (s : State) : State :=
  { s with
    col := { s.col with volState := .scanning }
    tally := { s.tally with clockRuns := true, clockMs := 0 } }

/-- START's sequencer with the RESTORE begun, in the state where it still stands. -/
def restoreBegun (m : Mode) (d : Dir) (s : State) : Sequencer := { startSequencer m d s with kind := some .restore }

theorem startVolume_eq {m : Mode} {d : Dir} {s : State} (hstop : s.seq.state = .stopped) :
    startVolume m d s = react (enterPlatenUp .restore ((scanStarted s).setSeq (startSequencer m d s))) := by
  have hview : ∀ b, inView (s.setSeq (startSequencer m d s)) b = inView s b := fun b => by
    rw [inView_stopped hstop, inView_stopped (s := s.setSeq (startSequencer m d s)) hstop]
  rw [startVolume, reseat_same hview]
  rfl

/-- The first motion of START, from STOPPED. -/
theorem restore_platenUp {m : Mode} {d : Dir} {s : State} (hstop : s.seq.state = .stopped) (f : Outputs → Outputs) :
    enterMotion .platenUp f ((scanStarted s).setSeq (restoreBegun m d s)) =
      reseat { restoreBegun m d s with
        state := .platenUp, motionLeft := motionLimit s .platenUp, outputs := f s.seq.outputs } (scanStarted s) := by
  have hview : ∀ b, inView ((scanStarted s).setSeq (restoreBegun m d s)) b = inView (scanStarted s) b := fun b => by
    rw [inView_stopped (s := scanStarted s) hstop, inView_stopped (s := (scanStarted s).setSeq (restoreBegun m d s)) hstop]
  have hplain := enterMotion_plain (s := (scanStarted s).setSeq (restoreBegun m d s))
    (show s.seq.state ≠ .held from hstop ▸ nofun) (show s.seq.state ≠ .panelHeld from hstop ▸ nofun) .platenUp f
  exact hplain.trans (reseat_of_inView hview)

theorem startRule_ok {ws : List Slot} {m : Mode} {d : Option Dir} {s : State} (hvol : s.col.volState = .ready)
    (hlen : ws.length = 3) (hread : readModeDir ws = some (m, d)) (hmanual : s.seq.manual = none) :
    startRule ws s = ⟨.ok, [], startVolume m (d.getD .forward) s⟩ := by
  simp [startRule, hvol, hlen, hread, hmanual]

/-- Settles O16. -/
theorem startBeginsTheScan : Obligations.StartBeginsTheScan := by
  intro tag ws s m d htakes hvol hlen hread
  have accepted {t : State} (hmanual : s.seq.manual = none) (ht : startVolume m (d.getD .forward) s = t) :
      exec (.start tag ws) s = .next (giveReply tag 0x20 ⟨.ok, [], t⟩) :=
    exec_answers htakes rfl ((startRule_ok hvol hlen hread hmanual).trans (congrArg _ ht))
  refine ⟨fun hbusy => exec_answers htakes rfl ?_, fun hmanual hstop => ⟨fun hup => ?_, fun hup hhome => ?_⟩⟩
  · simp [startRule, hvol, hlen, hread, Option.isSome_iff_ne_none.2 hbusy, refuse]
  · refine accepted hmanual ((startVolume_eq hstop).trans ?_)
    rw [enterPlatenUp_below (by exact hup)]
    refine Eq.trans (congrArg react (restore_platenUp hstop _)) (react_away rfl)
  · refine accepted hmanual ((startVolume_eq hstop).trans ?_)
    rw [enterPlatenUp_above (by exact hup)]
    have hrose : platenUpDone (reseat { restoreBegun m (d.getD .forward) s with
        state := .platenUp, motionLeft := motionLimit s .platenUp
        outputs := { s.seq.outputs with platen := .up } } (scanStarted s)) =
      reseat { restoreBegun m (d.getD .forward) s with
        state := .home, motionLeft := motionLimit s .home
        outputs := { s.seq.outputs with platen := .off, arm := towardSpine s } } (scanStarted s) := by
      rw [platenUpDone_restore rfl]
      refine Eq.trans (congrArg enterHome (setSeq_reseat (r := { restoreBegun m (d.getD .forward) s with
        state := .platenUp, motionLeft := motionLimit s .platenUp
        outputs := { s.seq.outputs with platen := .off } }) rfl rfl rfl rfl)) ?_
      rw [enterHome_away (by exact hhome), enterMotion_reseat .home _ rfl (by exact nofun)]
      rfl
    exact Eq.trans (congrArg (react ∘ platenUpDone) (restore_platenUp hstop _))
      ((congrArg react hrose).trans (react_away rfl))

end Sys2Proof.Machine
end

section
/-! PROOFS of the family `other`: a machine turn, arrival by arrival (02 R31 to R34, R40, R42). -/
namespace Sys2Proof.Machine

/-! ### The pointer depends on the collation and on p (02 R28, R29) -/

theorem leafAt_of {s t : State} (hl : t.col.leaves = s.col.leaves) : leafAt t = leafAt s := by
  funext i
  rw [leafAt, hl, leafAt]

theorem present_of {s t : State} (hl : t.col.leaves = s.col.leaves) (hv : t.col.volume = s.col.volume) :
    present t = present s := by
  funext i
  rw [present, leafAt_of hl, leafCount_congr hv, present]

section
variable {s t : State} (hpresent : present t = present s)
include hpresent

theorem presentBefore_of (i : Nat) : presentBefore t i = presentBefore s i := by
  induction i with
  | zero => rfl
  | succ i ih => rw [presentBefore, hpresent, ih, presentBefore]

theorem presentFrom_of (i k : Nat) : presentFrom t i k = presentFrom s i k := by
  induction k generalizing i with
  | zero => rfl
  | succ k ih => rw [presentFrom, hpresent, ih, presentFrom]

theorem presentAfter_of (hcount : leafCount t = leafCount s) (i : Nat) : presentAfter t i = presentAfter s i := by
  rw [presentAfter, hcount, presentFrom_of hpresent, presentAfter]

end

theorem leafAt_congr {s t : State} (hc : t.col = s.col) : leafAt t = leafAt s := leafAt_of (congrArg _ hc)

theorem presentBefore_congr {s t : State} (hc : t.col = s.col) (i : Nat) : presentBefore t i = presentBefore s i :=
  presentBefore_of (present_of (congrArg _ hc) (congrArg _ hc)) i

theorem presentAfter_congr {s t : State} (hc : t.col = s.col) (i : Nat) : presentAfter t i = presentAfter s i :=
  presentAfter_of (present_of (congrArg _ hc) (congrArg _ hc)) (leafCount_congr (congrArg _ hc)) i

theorem pointerAfter_congr {s t : State} (hc : t.col = s.col) (hp : t.seq.p = s.seq.p) (d : Dir) :
    pointerAfter t d = pointerAfter s d := by
  cases d with
  | forward => simp only [pointerAfter, presentAfter_congr hc, hp]
  | backward => simp only [pointerAfter, presentBefore_congr hc, hp]

theorem turnedLeaf_congr {s t : State} (hc : t.col = s.col) (hp : t.seq.p = s.seq.p) (d : Dir) :
    turnedLeaf t d = turnedLeaf s d := by
  cases d with
  | forward => simp only [turnedLeaf, leafCount_congr (congrArg _ hc), hp]
  | backward => simp only [turnedLeaf, presentBefore_congr hc, hp]

/-! ### HOME, PRESENT and the rest states of a sequence -/

theorem enterHome_there {s : State} (h : s.seq.levels.home = true) : enterHome s =
    homeDone (enterMotion .home (fun o => { o with arm := towardSpine s }) s) :=
  if_pos ((congrArg _ (enterMotion_levels ..)).trans h)

/-- The lifts of PRESENT: each half raised until its own contact is active (02 R31). -/
def presentDrive (s : State) (o : Outputs) : Outputs :=
  { o with lifts := ⟨if s.seq.levels.leftContact then .off else .raise,
      if s.seq.levels.rightContact then .off else .raise⟩ }

theorem enterPresent_away {s : State} (h : (s.seq.levels.leftContact && s.seq.levels.rightContact) = false) :
    enterPresent s = enterMotion .present (presentDrive s) s :=
  if_neg (Bool.eq_false_iff.1 ((congrArg (fun q : Inputs => q.leftContact && q.rightContact)
    (enterMotion_levels ..)).trans h))

theorem enterPresent_to {s : State} (hs : s.seq.state.showsSides = true) (hheld : s.seq.state ≠ .held)
    (h : (s.seq.levels.leftContact && s.seq.levels.rightContact) = false) : enterPresent s = s.setSeq { s.seq with
      state := .present, motionLeft := motionLimit s .present, outputs := presentDrive s s.seq.outputs } := by
  rw [enterPresent_away h, enterMotion_showsSides .present _ hs hheld]
  rfl

theorem enterHome_to {s : State} (hs : s.seq.state.showsSides = true) (hheld : s.seq.state ≠ .held)
    (h : s.seq.levels.home = false) : enterHome s = s.setSeq { s.seq with
      state := .home, motionLeft := motionLimit s .home
      outputs := { s.seq.outputs with arm := towardSpine s } } := by
  rw [enterHome_away h, enterMotion_showsSides .home _ hs hheld]
  rfl

/-- HOME completes with a contact missing: PRESENT is entered. -/
theorem homeDone_to {s : State} (hs : s.seq.state.showsSides = true) (hheld : s.seq.state ≠ .held)
    (h : (s.seq.levels.leftContact && s.seq.levels.rightContact) = false) : homeDone s = s.setSeq { s.seq with
      state := .present, motionLeft := motionLimit s .present
      outputs := { presentDrive s s.seq.outputs with arm := .brake } } :=
  enterPresent_to (s := s.setOutputs { s.seq.outputs with arm := .brake }) hs hheld h

/-- HOME entered where the arm is home already leads on to PRESENT. -/
theorem enterHome_through {s : State} (hs : s.seq.state.showsSides = true) (hheld : s.seq.state ≠ .held)
    (hhome : s.seq.levels.home = true) (h : (s.seq.levels.leftContact && s.seq.levels.rightContact) = false) :
    enterHome s = s.setSeq { s.seq with
      state := .present, motionLeft := motionLimit s .present
      outputs := { presentDrive s s.seq.outputs with arm := .brake } } := by
  rw [enterHome_there hhome, enterMotion_showsSides .home _ hs hheld, homeDone_to rfl (by exact nofun) (by exact h)]
  rfl

theorem enterHandWait_from {s : State} {leaf : Nat} {owed : Option Dir} (hs : s.seq.state.showsSides = true)
    (hheld : s.seq.state ≠ .held) : enterHandWait leaf owed s = raise .handWait [slot leaf, slot (dirOptNum owed)]
      (s.setSeq { s.seq with state := .handWait, owed := owed, kind := none, turn := none, motionLeft := 0 }) := by
  rw [enterHandWait, goto_showsSides hs hheld rfl]
  rfl

theorem enterFoldWait_from {s : State} (hs : s.seq.state.showsSides = true) (hheld : s.seq.state ≠ .held) :
    enterFoldWait s =
      reseat { s.seq with state := .foldWait, kind := none, turn := none, motionLeft := 0 } s := by
  rw [enterFoldWait, goto_plain hheld (s.seq.state.showsSides_iff.1 hs).2.2]
  exact setSeq_reseat rfl rfl rfl rfl

/-! ### Platen up, by its sequence kind -/

/-- The part with the platen drive off. -/
def platenOff (s : State) : State := s.setOutputs { s.seq.outputs with platen := .off }

theorem platenUpDone_machineTurn {s : State} (h : s.seq.kind = some .machineTurn) :
    platenUpDone s = enterPick (platenOff s) := by
  simp only [platenUpDone, platenOff, State.setOutputs, h]

theorem platenUpDone_foldRaise {s : State} (h : s.seq.kind = some .foldRaise) :
    platenUpDone s = enterFoldWait (platenOff s) := by
  simp only [platenUpDone, platenOff, State.setOutputs, h]

theorem platenUpDone_handRaise {s : State} {turn : Turn} (h : s.seq.kind = some .handRaise)
    (hturn : s.seq.turn = some turn) : platenUpDone s = enterHandWait turn.leaf (some turn.dir) (platenOff s) := by
  simp only [platenUpDone, platenOff, State.setOutputs, h, hturn]
  rfl

/-- The part at platen up's arrival, the moved marks set. -/
def arrivedUp (s : State) : State :=
  { arrived .platenUp true s with ports := ⟨movedMark s.ports.left, movedMark s.ports.right⟩ }

theorem exec_platenUp {s t : State} (hstart : s.start ≠ .held) (h : s.seq.state = .platenUp)
    (ht : platenUpDone (arrivedUp s) = t) (hmanual : t.seq.manual = none) :
    exec (.platenUpArrival true) s = .next (idleBoundary (react t)) := by
  refine exec_arrival hstart rfl ?_
  rw [if_pos rfl, arrivesActive, platenRose_eq]
  have hdone : (if (arrivedUp s).seq.state = .platenUp then platenUpDone (arrivedUp s) else arrivedUp s) = t :=
    (if_pos h).trans ht
  exact (congrArg (completeManual .platenUp) hdone).trans (completeManual_none (by rw [hmanual]; nofun))

/-! ### PICK, CARRY and LAY -/

/-- The part as it leaves PICK for CARRY with no edge counted (02 R32). -/
theorem carryFromPick_eq {s : State} (hs : s.seq.state.showsSides = true) (hheld : s.seq.state ≠ .held) :
    carryFromPick s = s.setSeq { s.seq with
      state := .carry, edges := 0, double := false, edgesFixed := false, motionLeft := motionLimit s .carry
      outputs := { s.seq.outputs with puff := false, arm := armToward (destSide s) } } := by
  rw [carryFromPick, driveCarry]
  exact enterMotion_showsSides (s := s.setSeq _) .carry _ hs hheld

theorem pickDone_away {s : State} (n : Nat) (hs : s.seq.state.showsSides = true) (hheld : s.seq.state ≠ .held)
    (hfar : s.seq.levels.get (farInput (destSide s)) = false) : pickDone n s = s.setSeq { s.seq with
      state := .carry, edges := 0, double := false, edgesFixed := false, motionLeft := motionLimit s .carry
      outputs := { s.seq.outputs with puff := false, arm := armToward (destSide s) } } := by
  have hdest : atDest (carryFromPick s) = false := by
    rw [carryFromPick_eq hs hheld]
    exact hfar
  rw [← carryFromPick_eq hs hheld]
  cases n <;> exact if_neg (Bool.eq_false_iff.1 hdest)

theorem enterLay_good {s : State} (hs : s.seq.state.showsSides = true) (hheld : s.seq.state ≠ .held)
    (hvac : s.seq.levels.vacuumGood = true) : enterLay s = s.setSeq { s.seq with
      state := .lay, motionLeft := motionLimit s .lay
      outputs := { s.seq.outputs with arm := .brake, vacuum := false } } := by
  have henter := enterMotion_showsSides .lay (fun o => { o with arm := .brake, vacuum := false }) hs hheld
  exact (if_pos ((congrArg _ (enterMotion_levels ..)).trans hvac)).trans henter

theorem carryDone_lay {s : State} (hs : s.seq.state.showsSides = true) (hheld : s.seq.state ≠ .held)
    (hedges : 1 ≤ s.seq.edges) (hvac : s.seq.levels.vacuumGood = true) : carryDone s = s.setSeq { s.seq with
      state := .lay, double := decide (2 ≤ s.seq.edges), motionLeft := motionLimit s .lay
      outputs := { s.seq.outputs with arm := .brake, vacuum := false } } := by
  rw [carryDone, if_neg (by omega)]
  exact enterLay_good (s := s.setSeq { s.seq with double := decide (2 ≤ s.seq.edges) }) hs hheld hvac

theorem carryDone_mispick {s : State} (hedges : s.seq.edges = 0) : carryDone s = mispick .carry s := if_pos hedges

/-- A machine turn done: p has moved and HOME is entered (02 R31). -/
theorem layDone_turned {s : State} {p : Nat} (h : s.seq.state = .lay) (hp : pointerAfter s (turnDir s) = p)
    (hdouble : s.seq.double = false) (hhome : s.seq.levels.home = false) : layDone s = reseat { s.seq with
      state := .home, p := p, foldMark := both false, settledHere := both false
      motionLeft := motionLimit s .home, outputs := { s.seq.outputs with arm := towardSpine s } } s := by
  have henter := enterMotion_reseat (q := { s.seq with p := p, foldMark := both false, settledHere := both false })
    (s := s) .home (fun o => { o with arm := towardSpine s }) (congrArg SeqState.showsSides h)
    (by exact fun k => nomatch h.symm.trans k)
  rw [layDone, if_neg (Bool.eq_false_iff.1 hdouble), hp, movePointer, enterHome_away (by exact hhome)]
  exact henter

theorem layDone_double {s : State} (hdouble : s.seq.double = true) : layDone s = doubleFault s := if_pos hdouble

/-! ### What platen up leads to, by the sequence kind -/

section
variable {s : State} (hstate : s.seq.state = .platenUp)
include hstate

theorem platenUp_showsSides : s.seq.state.showsSides = true := hstate ▸ rfl

theorem platenUp_unheld : s.seq.state ≠ .held := hstate ▸ nofun

theorem platenUp_handRaise {turn : Turn} (hkind : s.seq.kind = some .handRaise) (hturn : s.seq.turn = some turn) :
    platenUpDone s = raise .handWait [slot turn.leaf, if turn.dir = .forward then 0 else 1] (s.setSeq { s.seq with
      state := .handWait, owed := some turn.dir, kind := none, turn := none, motionLeft := 0
      outputs := { s.seq.outputs with platen := .off } }) := by
  have hslot : slot (dirOptNum (some turn.dir)) = if turn.dir = .forward then 0 else 1 := by cases turn.dir <;> rfl
  rw [platenUpDone_handRaise hkind hturn, enterHandWait_from (s := platenOff s) (platenUp_showsSides hstate)
    (platenUp_unheld hstate), hslot]
  rfl

theorem platenUp_foldRaise (hkind : s.seq.kind = some .foldRaise) : platenUpDone s = reseat { s.seq with
      state := .foldWait, kind := none, turn := none, motionLeft := 0
      outputs := { s.seq.outputs with platen := .off } } s := by
  rw [platenUpDone_foldRaise hkind, enterFoldWait_from (s := platenOff s) (platenUp_showsSides hstate)
    (platenUp_unheld hstate)]
  exact reseat_setSeq rfl rfl rfl rfl

theorem platenUp_restore_home (hkind : s.seq.kind = some .restore) (hhome : s.seq.levels.home = false) :
    platenUpDone s = s.setSeq { s.seq with
      state := .home, motionLeft := motionLimit s .home
      outputs := { s.seq.outputs with platen := .off, arm := towardSpine s } } :=
  (platenUpDone_restore hkind).trans
    (enterHome_to (s := platenOff s) (platenUp_showsSides hstate) (platenUp_unheld hstate) hhome)

theorem platenUp_restore_present (hkind : s.seq.kind = some .restore) (hhome : s.seq.levels.home = true)
    (h : (s.seq.levels.leftContact && s.seq.levels.rightContact) = false) : platenUpDone s = s.setSeq { s.seq with
      state := .present, motionLeft := motionLimit s .present
      outputs := { presentDrive s s.seq.outputs with platen := .off, arm := .brake } } :=
  (platenUpDone_restore hkind).trans
    (enterHome_through (s := platenOff s) (platenUp_showsSides hstate) (platenUp_unheld hstate) hhome h)

theorem platenUp_machineTurn (hkind : s.seq.kind = some .machineTurn)
    (hfar : s.seq.levels.get (farInput (sourceSide s)) = false) (hvac : s.seq.levels.vacuumGood = false) :
    platenUpDone s = s.setSeq { s.seq with
      state := .pick, motionLeft := motionLimit s .pick
      outputs := { s.seq.outputs with platen := .off, arm := armToward (sourceSide s) } } :=
  (platenUpDone_machineTurn hkind).trans
    (enterPick_toward (s := platenOff s) (platenUp_showsSides hstate) (platenUp_unheld hstate) hfar hvac)

end

/-! ### What the arrivals of a machine turn lead to -/

theorem Inputs.get_set_ne {q : Inputs} {i j : Input} {b : Bool} (h : i ≠ j) : (q.set i b).get j = q.get j := by
  cases i <;> cases j <;> simp_all [Inputs.get, Inputs.set]

theorem farInput_ne {side : Side} {i : Input} (hl : i ≠ .farLeft) (hr : i ≠ .farRight) : i ≠ farInput side := by
  cases side <;> assumption

theorem farInput_other (side : Side) : farInput side.other ≠ farInput side := by cases side <;> simp [farInput, Side.other]

theorem exec_arrives {c : Instr} {i : Input} {s t : State} (hstart : s.start ≠ .held)
    (hexec : exec c s = .next (arrivalCommand i true s)) (h : arrivesActive i (arrived i true s) = t)
    (haway : t.seq.state.isRest = false) : exec c s = .next (idleBoundary t) :=
  exec_arrival_away hstart hexec h (.inl haway)

theorem exec_releases {c : Instr} {i : Input} {s t : State} (hstart : s.start ≠ .held)
    (hexec : exec c s = .next (arrivalCommand i false s)) (h : arrivesInactive i (arrived i false s) = t)
    (haway : t.seq.state.isRest = false) : exec c s = .next (idleBoundary t) :=
  exec_arrival_away hstart hexec h (.inl haway)

theorem exec_farArrives {side : Side} {s t : State} (hstart : s.start ≠ .held)
    (h : farArrives side (arrived (farInput side) true s) = t) (haway : t.seq.state.isRest = false) :
    exec (.farPositionArrival side true) s = .next (idleBoundary t) := by
  cases side <;> exact exec_arrives hstart rfl h haway

theorem arrivesActive_vacuumGood_pick {s : State} (h : s.seq.state = .pick) :
    arrivesActive .vacuumGood s = pickDone (retriesLeft s) s := if_pos h

theorem arrivesInactive_vacuumGood_lay {s : State} (h : s.seq.state = .lay) :
    arrivesInactive .vacuumGood s = layDone s := if_pos h

/-- The far position of the source reached in PICK. -/
theorem farArrives_source {s : State} (h : s.seq.state = .pick) : farArrives (sourceSide s) s = s.setSeq { s.seq with
      lastFar := some (sourceSide s)
      outputs := { s.seq.outputs with arm := .brake, vacuum := true, puff := true } } :=
  (farArrives_pick h).trans (if_pos rfl)

/-- The part with a far position the last to have come. -/
def atFar (side : Side) (s : State) : State := s.setSeq { s.seq with lastFar := some side }

theorem farArrives_dest {s : State} (h : s.seq.state = .carry) :
    farArrives (destSide s) s = carryDone (atFar (destSide s) s) :=
  (farArrives_carry h).trans (if_pos rfl)

theorem farArrives_dest_lay {s : State} (h : s.seq.state = .carry) (hedges : 1 ≤ s.seq.edges)
    (hvac : s.seq.levels.vacuumGood = true) : farArrives (destSide s) s = s.setSeq { s.seq with
      state := .lay, double := decide (2 ≤ s.seq.edges), lastFar := some (destSide s), motionLeft := motionLimit s .lay
      outputs := { s.seq.outputs with arm := .brake, vacuum := false } } :=
  (farArrives_dest h).trans
    (carryDone_lay (s := atFar (destSide s) s) (congrArg SeqState.showsSides h) (h ▸ nofun) hedges hvac)

/-- CARRY reached its end with no edge counted: a mispick, tried again (02 R33). -/
theorem farArrives_dest_retry {s : State} (h : s.seq.state = .carry) (hedges : s.seq.edges = 0)
    (hretry : s.seq.retries < s.settings.pickRetries) (hfar : s.seq.levels.get (farInput (sourceSide s)) = false)
    (hvac : s.seq.levels.vacuumGood = false) : farArrives (destSide s) s = s.setSeq { s.seq with
      state := .pick, retries := s.seq.retries + 1, lastFar := some (destSide s), motionLeft := motionLimit s .pick
      outputs := { s.seq.outputs with vacuum := false, puff := false, arm := armToward (sourceSide s) } } :=
  (farArrives_dest h).trans ((carryDone_mispick (s := atFar (destSide s) s) hedges).trans
    ((mispick_retry (s := atFar (destSide s) s) hretry).trans
      (enterPick_toward (s := dropped (atFar (destSide s) s)) (congrArg SeqState.showsSides h) (h ▸ nofun) hfar hvac)))

/-- A double carry laid down (02 R34). -/
theorem layDone_doubleTurn {s : State} {turn : Turn} (h : s.seq.state = .lay) (hscan : s.col.volState = .scanning)
    (hdouble : s.seq.double = true) (hrest : bothAtRest s = true) (hkind : s.seq.kind = some .machineTurn)
    (hturn : s.seq.turn = some turn) : layDone s = raise .paused [2] (raise .doubleTurn
      [slot turn.leaf, slot s.seq.edges] (faulted ⟨.lay, .doubleTurn, some turn.leaf, some turn.dir, .none⟩ s)) := by
  have hof : turnOfMotion s = some turn := by simp [turnOfMotion_eq, hkind, hturn]
  have hdir : turnDir s = turn.dir := by simp [turnDir, hturn]
  rw [layDone_double hdouble, doubleFault_showsSides (h ▸ rfl) (h ▸ nofun) hscan hrest, hof, hdir]
  rfl

/-- Settles O38. -/
theorem theMachineTurn : Obligations.TheMachineTurn := by
  intro s hstart hscan hmanual
  simp only [arrived_eq]
  have up {t : State} (hstate : s.seq.state = .platenUp) (ht : platenUpDone (arrivedUp s) = t)
      (hnone : t.seq.manual = none) (hquiet : react t = t) :
      exec (.platenUpArrival true) s = .next (idleBoundary t) :=
    (exec_platenUp hstart hstate ht hnone).trans (congrArg (fun u => Host.Outcome.next (idleBoundary u)) hquiet)
  refine ⟨fun hstate => ?_, fun hstate => ⟨fun turn hkind hturn hpause => ?_, fun hkind hpause => ?_,
    fun hkind hhome => ?_, fun hkind hhome hcontact => ?_⟩, fun hkind => ⟨fun hstate hfar hvac => ?_, fun hstate => ?_,
    fun hstate hfar => ?_, fun hstate => ⟨fun hedges hvac => ?_, fun hedges hretry hfar hvac => ?_⟩,
    fun hstate => ⟨fun hdouble hhome => ?_, fun turn hdouble hrest hturn => ?_⟩⟩⟩
  · have h := arrivesActive_platenUp_other (s := arrived .platenUp true s) hstate (hmanual ▸ nofun)
    exact exec_arrival hstart rfl (h.trans (platenRose_eq _))
  · exact up hstate (platenUp_handRaise (s := arrivedUp s) hstate hkind hturn) hmanual
      (react_quiet (by exact nofun) (by exact nofun) (.inl hpause))
  · exact up hstate (platenUp_foldRaise (s := arrivedUp s) hstate hkind) hmanual
      (react_quiet (by exact nofun) (by exact nofun) (.inl hpause))
  · exact up hstate (platenUp_restore_home (s := arrivedUp s) hstate hkind hhome) hmanual (react_away rfl)
  · exact up hstate (platenUp_restore_present (s := arrivedUp s) hstate hkind hhome hcontact) hmanual (react_away rfl)
  · have hfar' : (arrivedUp s).seq.levels.get (farInput (sourceSide s)) = false :=
      (Inputs.get_set_ne (farInput_ne (by nofun) (by nofun))).trans hfar
    exact up hstate (platenUp_machineTurn (s := arrivedUp s) hstate hkind hfar' hvac) hmanual (react_away rfl)
  · exact exec_farArrives hstart (farArrives_source (s := arrived (farInput (sourceSide s)) true s) hstate)
      (congrArg SeqState.isRest hstate)
  · have hfar' : (arrived .vacuumGood true s).seq.levels.get (farInput (destSide s)) = false :=
      (Inputs.get_set_ne (farInput_ne (by nofun) (by nofun))).trans hfar
    exact exec_arrives hstart rfl ((arrivesActive_vacuumGood_pick (s := arrived .vacuumGood true s) hstate).trans
      (pickDone_away (s := arrived .vacuumGood true s) _ (congrArg SeqState.showsSides hstate) (hstate ▸ nofun)
        hfar')) rfl
  · have hvac' : (arrived (farInput (destSide s)) true s).seq.levels.get .vacuumGood = true :=
      (Inputs.get_set_ne (farInput_ne (by nofun) (by nofun)).symm).trans hvac
    exact exec_farArrives hstart
      (farArrives_dest_lay (s := arrived (farInput (destSide s)) true s) hstate hedges hvac') rfl
  · have hfar' : (arrived (farInput (destSide s)) true s).seq.levels.get (farInput (sourceSide s)) = false :=
      (Inputs.get_set_ne (farInput_other _)).trans hfar
    have hvac' : (arrived (farInput (destSide s)) true s).seq.levels.get .vacuumGood = false :=
      (Inputs.get_set_ne (farInput_ne (by nofun) (by nofun)).symm).trans hvac
    exact exec_farArrives hstart
      (farArrives_dest_retry (s := arrived (farInput (destSide s)) true s) hstate hedges hretry hfar' hvac') rfl
  · have hp := pointerAfter_congr (s := s) (t := arrived .vacuumGood false s) rfl rfl (turnDir s)
    exact exec_releases hstart rfl ((arrivesInactive_vacuumGood_lay (s := arrived .vacuumGood false s) hstate).trans
      (layDone_turned (s := arrived .vacuumGood false s) hstate hp hdouble hhome)) rfl
  · exact exec_releases hstart rfl ((arrivesInactive_vacuumGood_lay (s := arrived .vacuumGood false s) hstate).trans
      (layDone_doubleTurn (s := arrived .vacuumGood false s) hstate hscan hdouble hrest hkind hturn)) rfl

end Sys2Proof.Machine
end

section
/-! PROOFS of the family `other`: the opening presented, held and offered to the channels (02 R31, R35, R37, R38, R46,
05 R96, R98). -/
namespace Sys2Proof.Machine

/-! ### Taking a target up at a port that is IDLE (05 R96, R98) -/

/-- The channel that has taken a target up and asks for the gate with its first shot. -/
def gatingFor (x : Target) (s : State) : Channel :=
  { Channel.afterReset with state := .gating, target := some x, shot := 1, copy := some (copyOf (recipeOf s x) 1) }

/-- The port armed with the header of a target's first shot. -/
def armedFor (b : Side) (x : Target) (s : State) : Port :=
  { s.port b with
    state := .armed
    armed := some ⟨s.col.serial, b, x, classOf s x, 1, (recipeOf s x).shotCount, 1, (recipeOf s x).lo, (recipeOf s x).hi,
      (recipeOf s x).clipLimit, .live, none, false⟩ }

/-- The part with a target taken up at a bank. -/
def takenUp (b : Side) (x : Target) (s : State) : State :=
  { s with chans := s.chans.set b (gatingFor x s), ports := s.ports.set b (armedFor b x s) }

theorem handHeader_idle {b : Side} {h : Header} {s : State} (hport : (s.port b).state = .idle) : handHeader b h s =
    (s.setPort b { s.port b with armed := some h, state := .armed }).setChan b { s.chan b with state := .gating } := by
  rw [handHeader]
  simp only [hport]

theorem takeUp_eq {b : Side} {x : Target} {s : State} (hshot : 1 ≤ (recipeOf s x).shotCount)
    (hport : (s.port b).state = .idle) : takeUp b x s = takenUp b x s := by
  have hcount : ¬(recipeOf s x).shotCount < 1 := by omega
  have harm : takeUp b x s = handHeader b
      ⟨s.col.serial, b, x, classOf s x, 1, (recipeOf s x).shotCount, 1, (recipeOf s x).lo, (recipeOf s x).hi,
        (recipeOf s x).clipLimit, .live, none, false⟩
      (s.setChan b { Channel.afterReset with
        state := .arming, target := some x, shot := 1, copy := some (copyOf (recipeOf s x) 1) }) := by
    cases b <;> exact if_neg hcount
  rw [harm, handHeader_idle (by exact hport)]
  cases b <;> rfl

theorem recipeOf_shotCount {s : State} (h : settingsLaw s) (x : Target) : 1 ≤ (recipeOf s x).shotCount := by
  obtain ⟨_, _, ⟨_, hrecipes⟩, _⟩ := h.1
  rw [recipeOf, List.getD_eq_getElem?_getD]
  cases hget : s.settings.recipes[classOf s x]? with
  | none => decide
  | some r => exact (hrecipes r (List.mem_of_getElem? hget)).1

/-! ### Offering the opening to a channel that has nothing (05 R96) -/

/-- The PENDING target in view of a bank. -/
def pendingInView (s : State) (b : Side) : Option Target := (inView s b).filter (isPending s)

theorem offer_takes {b : Side} {x : Target} {s : State} (hheld : isHeld s = true) (hopen : captureAllowed s = true)
    (hchan : s.chan b = .afterReset) (hx : pendingInView s b = some x) : offer b s = takeUp b x s := by
  obtain ⟨hview, hpending⟩ := Option.filter_eq_some_iff.1 hx
  simp [offer, hheld, hopen, hchan, Channel.afterReset, hview, hpending]

/-- A channel that has nothing is offered nothing where nothing in view is PENDING. -/
theorem offer_passes {b : Side} {s : State} (hchan : s.chan b = .afterReset) (hx : pendingInView s b = none) :
    offer b s = s := by
  have hnone := Option.filter_eq_none_iff.1 hx
  rw [offer]
  split
  · simp only [hchan, Channel.afterReset]
    cases hview : inView s b with
    | none => rfl
    | some x => exact if_neg (hnone x hview)
  · rfl

/-- The part after a bank that has nothing is offered what is in view. -/
def offered (b : Side) (s : State) : State :=
  match pendingInView s b with
  | some x => takenUp b x s
  | none => s

theorem offer_offered {b : Side} {s : State} (hheld : isHeld s = true) (hopen : captureAllowed s = true)
    (hchan : s.chan b = .afterReset) (hport : (s.port b).state = .idle) (hlaw : settingsLaw s) :
    offer b s = offered b s := by
  rw [offered]
  cases hx : pendingInView s b with
  | none => exact offer_passes hchan hx
  | some x => exact (offer_takes hheld hopen hchan hx).trans (takeUp_eq (recipeOf_shotCount hlaw x) hport)

theorem offered_beside (b : Side) (s : State) :
    offered b s = { s with chans := (offered b s).chans, ports := (offered b s).ports } := by
  rw [offered]
  cases pendingInView s b <;> rfl

theorem offered_other (b : Side) (s : State) :
    (offered b s).chan b.other = s.chan b.other ∧ (offered b s).port b.other = s.port b.other := by
  rw [offered]
  cases pendingInView s b with
  | none => exact ⟨rfl, rfl⟩
  | some x => cases b <;> exact ⟨rfl, rfl⟩

/-- What a bank takes up depends on the part beside its channels and ports. -/
theorem pendingInView_congr {s t : State} {b : Side} (hcol : t.col = s.col) (hview : inView t b = inView s b) :
    pendingInView t b = pendingInView s b := by
  have hpending : isPending t = isPending s := by
    funext x
    cases x <;> simp only [isPending, stateOf, fieldsOf, panelsOf, hcol]
  rw [pendingInView, hview, hpending, pendingInView]

theorem offered_takes {b : Side} {x : Target} {s : State} (hx : pendingInView s b = some x) :
    (offered b s).chan b = gatingFor x s ∧ (offered b s).port b = armedFor b x s := by
  rw [offered, hx]
  cases b <;> exact ⟨rfl, rfl⟩

theorem offered_passes {b : Side} {s : State} (hx : pendingInView s b = none) : offered b s = s := by
  rw [offered, hx]

theorem inView_offered (b c : Side) (s : State) : inView (offered b s) c = inView s c := by
  have hseq : (offered b s).seq = s.seq := by rw [offered_beside]
  exact inView_congr (s := s) (t := offered b s) (by rw [offered_beside]) (by rw [hseq]) (by rw [hseq]) (by rw [hseq])
    (by rw [hseq]) c

theorem pendingInView_offered (b c : Side) (s : State) : pendingInView (offered b s) c = pendingInView s c :=
  pendingInView_congr (by rw [offered_beside]) (inView_offered b c s)

/-- The part after both banks, that have nothing, are offered what is in view. -/
def bothOffered (s : State) : State := offered .right (offered .left s)

theorem bothOffered_beside (s : State) :
    bothOffered s = { s with chans := (bothOffered s).chans, ports := (bothOffered s).ports } := by
  rw [bothOffered, offered_beside .right, offered_beside .left]

theorem offerBoth_fresh {s : State} (hheld : isHeld s = true) (hopen : captureAllowed s = true)
    (hfresh : ∀ b, s.chan b = .afterReset ∧ (s.port b).state = .idle) (hlaw : settingsLaw s) :
    offerBoth s = bothOffered s := by
  obtain ⟨hchan, hport⟩ := hfresh .right
  obtain ⟨hkeepChan, hkeepPort⟩ := offered_other .left s
  have hheld' : isHeld (offered .left s) = true := by
    rw [offered_beside]
    exact hheld
  have hopen' : captureAllowed (offered .left s) = true := by
    rw [offered_beside]
    exact hopen
  have hlaw' : settingsLaw (offered .left s) := by
    rw [offered_beside]
    exact hlaw
  rw [offerBoth, offer_offered hheld hopen (hfresh .left).1 (hfresh .left).2 hlaw]
  exact offer_offered hheld' hopen' (hkeepChan.trans hchan) ((congrArg Port.state hkeepPort).trans hport) hlaw'

/-- What each bank holds once both were offered: nothing new, or the first shot of the PENDING target in its view. -/
theorem bothOffered_at (s : State) (b : Side) :
    (pendingInView s b = none → (bothOffered s).chan b = s.chan b ∧ (bothOffered s).port b = s.port b) ∧
    (∀ x, pendingInView s b = some x →
      (bothOffered s).chan b = gatingFor x s ∧ (bothOffered s).port b = armedFor b x s) := by
  cases b with
  | left =>
    obtain ⟨hchan, hport⟩ := offered_other .right (offered .left s)
    refine ⟨fun hnone => ?_, fun x hx => ?_⟩
    · exact ⟨hchan.trans (by rw [offered_passes hnone]; rfl), hport.trans (by rw [offered_passes hnone]; rfl)⟩
    · obtain ⟨hchan', hport'⟩ := offered_takes hx
      exact ⟨hchan.trans hchan', hport.trans hport'⟩
  | right =>
    obtain ⟨hchan, hport⟩ := offered_other .left s
    refine ⟨fun hnone => ?_, fun x hx => ?_⟩
    · rw [bothOffered, offered_passes ((pendingInView_offered .left .right s).trans hnone)]
      exact ⟨hchan, hport⟩
    · obtain ⟨hchan', hport'⟩ := offered_takes ((pendingInView_offered .left .right s).trans hx)
      refine ⟨hchan'.trans ?_, hport'.trans ?_⟩
      · rw [offered_beside .left]
        rfl
      · have hport : (offered .left s).port .right = s.port .right := hport
        rw [armedFor, hport, offered_beside .left]
        rfl

/-! ### The reaction in HELD under the hold (02 R37, R46) -/

theorem any_inView (s : State) (b : Side) : (inView s b).any (isPending s) = (pendingInView s b).isSome := by
  rw [pendingInView, Option.isSome_filter]

theorem noneInViewPending_iff (s : State) : noneInViewPending s = true ↔ ∀ b, pendingInView s b = none := by
  rw [noneInViewPending, any_inView, any_inView]
  simp only [Bool.and_eq_true, Bool.not_eq_true', Option.isSome_eq_false_iff, Option.isNone_iff_eq_none]
  exact ⟨fun ⟨hl, hr⟩ b => by cases b <;> assumption, fun h => ⟨h .left, h .right⟩⟩

theorem noneInViewPending_congr {s t : State} (hcol : t.col = s.col) (hview : ∀ b, inView t b = inView s b) :
    noneInViewPending t = noneInViewPending s := by
  rw [Bool.eq_iff_iff, noneInViewPending_iff, noneInViewPending_iff]
  simp only [fun b => pendingInView_congr (s := s) hcol (hview b)]

/-- What follows an event in HELD is decided by the part that the offers leave. -/
theorem react_held {s t : State} (hoffer : offerBoth s = t) (hheld : t.seq.state = .held)
    (hscan : t.col.volState = .scanning) : react s = reactHeld t := by
  simp only [react, hoffer, reactSeq, hscan, if_true, hheld]

theorem reactHeld_unsettled {s : State} (hhold : s.seq.hold = true) (hsettled : isSettled s = false)
    (hpause : s.seq.pendingPause = none) (hwaiting : s.seq.waiting = false) : reactHeld s = s := by
  have hseq : s.setSeq { s.seq with waiting := false } = s := by
    rw [← hwaiting]
    rfl
  rw [reactHeld, hhold, hsettled, hseq, takePause, hpause]
  rfl

theorem isSettled_iff (s : State) : isSettled s = true ↔ s.seq.state = .held ∧ s.col.volState = .scanning ∧
    s.seq.hold = true ∧ bothAtRest s = true ∧ noneInViewPending s = true := by
  simp [isSettled, and_assoc]

theorem reactHeld_settled {s : State} (hsettled : isSettled s = true) (hwaiting : s.seq.waiting = false) :
    reactHeld s = settledOpening s := by
  have hhold := ((isSettled_iff s).1 hsettled).2.2.1
  rw [reactHeld, hhold, hsettled, hwaiting]
  rfl

/-! ### The settled opening with nothing to open (02 R37, R38) -/

theorem foldoutToOpen_none {s : State} {b : Side}
    (h : ∀ leaf f, inView s b = some (.side leaf f) → (leafAt s leaf).foldout = none) : foldoutToOpen s b = none := by
  rw [foldoutToOpen]
  cases hview : inView s b with
  | none => rfl
  | some x =>
    cases x with
    | panel g n => rfl
    | side leaf f => simp only [h leaf f hview]

theorem settledFold_none {s : State} (h : ∀ b, foldoutToOpen s b = none) : settledFold s = settledTurn s := by
  simp only [settledFold, h, Option.map_none]

theorem settledTurn_step {s : State} (hnone : s.seq.pendingStep = none) (hmode : s.seq.mode = .step) :
    settledTurn s = s := by
  simp only [settledTurn, hnone, hmode, if_true]

theorem settledTurn_decide {s : State} (hnone : s.seq.pendingStep = none) (hmode : s.seq.mode ≠ .step) :
    settledTurn s = decideTurn s := by
  simp only [settledTurn, hnone, hmode, if_false]

theorem pendingAhead_none {s : State} (h : ∀ leaf f, stateOf s (.side leaf f) ≠ some .pending) (d : Dir) :
    pendingAhead s d = false := by
  refine List.any_eq_false.2 fun x _ => ?_
  cases x with
  | panel g n => simp
  | side leaf f => simp [isPending, h leaf f]

/-- With nothing PENDING ahead or behind the volume's end is raised and the volume PAUSED (02 R38). -/
theorem decideTurn_end {s : State} (h : ∀ d, pendingAhead s d = false) :
    decideTurn s = pauseVolume .volumeEnd (raise .volumeEnd [slot s.seq.p] s) := by
  simp only [decideTurn, h, Bool.false_eq_true, if_false]

/-- OPENING_DONE raised as the opening becomes settled. -/
def openingDone (s : State) : State := raise .openingDone [slot s.seq.p] (s.setSeq { s.seq with waiting := true })

theorem settledOpening_noPause {s : State} (h : s.seq.pendingPause = none) :
    settledOpening s = settledFold (openingDone s) := by
  simp only [settledOpening, raise_seq, State.setSeq, h, openingDone]

/-! ### From HOME to HELD -/

theorem enterPlatenDown_to {s : State} (hs : s.seq.state.showsSides = true) (hheld : s.seq.state ≠ .held)
    (h : s.seq.levels.platenDown = false) : enterPlatenDown s = s.setSeq { s.seq with
      state := .platenDown, motionLeft := motionLimit s .platenDown
      outputs := { s.seq.outputs with platen := .down } } := by
  have henter := enterMotion_showsSides .platenDown (fun o => { o with platen := .down }) hs hheld
  exact (if_neg (Bool.eq_false_iff.1 ((congrArg _ (enterMotion_levels ..)).trans h))).trans henter

/-- The part with a lift stopped. -/
def liftOff (side : Side) (s : State) : State :=
  s.setOutputs { s.seq.outputs with lifts := s.seq.outputs.lifts.set side .off }

theorem contactArrives_first {side : Side} {s : State} (h : s.seq.state = .present)
    (hother : (s.seq.levels.leftContact && s.seq.levels.rightContact) = false) :
    contactArrives side s = liftOff side s :=
  (if_pos h).trans (if_neg (Bool.eq_false_iff.1 hother))

theorem contactArrives_second {side : Side} {s : State} (h : s.seq.state = .present)
    (hboth : (s.seq.levels.leftContact && s.seq.levels.rightContact) = true) (hdown : s.seq.levels.platenDown = false) :
    contactArrives side s = s.setSeq { s.seq with
      state := .platenDown, motionLeft := motionLimit s .platenDown
      outputs := { s.seq.outputs with platen := .down, lifts := s.seq.outputs.lifts.set side .off } } :=
  (if_pos h).trans ((if_pos hboth).trans
    (enterPlatenDown_to (s := liftOff side s) (congrArg SeqState.showsSides h) (h ▸ nofun) hdown))

theorem bothContacts_set (q : Inputs) (side : Side) :
    ((q.set (contactInput side) true).leftContact && (q.set (contactInput side) true).rightContact) =
      q.get (contactInput side.other) := by
  cases side with
  | left => exact Bool.true_and _
  | right => exact Bool.and_true _

theorem exec_contactArrives {side : Side} {s t : State} (hstart : s.start ≠ .held)
    (h : contactArrives side (arrived (contactInput side) true s) = t) (haway : t.seq.state.isRest = false) :
    exec (.contactArrival side true) s = .next (idleBoundary t) := by
  cases side <;> exact exec_arrives hstart rfl h haway

/-- The part in HELD before the hold is granted. -/
def heldOf (s : State) : State :=
  s.setSeq { s.seq with
    state := .held, kind := none, turn := none, motionLeft := 0, outputs := { s.seq.outputs with platen := .off } }

/-- The part in HELD with the hold granted. -/
def grantedOf (s : State) : State :=
  s.setSeq { s.seq with
    state := .held, kind := none, turn := none, motionLeft := 0, hold := true, holdGiven := true, waiting := false
    outputs := { s.seq.outputs with platen := .off } }

/-- What entering HELD ends with: a pending pause before the hold (02 R46). -/
def heldNext (s : State) : State :=
  match s.seq.pendingPause with
  | some cause => if bothAtRest s then pauseVolume cause s else grantHold s
  | none => grantHold s

theorem enterHeld_eq (s : State) : enterHeld s =
    heldNext ((goto .held s).setSeq { (goto .held s).seq with kind := none, turn := none, motionLeft := 0 }) := rfl

theorem platenDownDone_eq {s : State} (hs : s.seq.state = .platenDown) : platenDownDone s = heldNext (heldOf s) := by
  have hgoto : goto .held (platenOff s) = (platenOff s).setSeq { (platenOff s).seq with state := .held } :=
    goto_showsSides (s := platenOff s) (congrArg SeqState.showsSides hs) (hs ▸ nofun) rfl
  refine (enterHeld_eq (platenOff s)).trans ?_
  rw [hgoto]
  rfl

theorem platenDownDone_granted {s : State} (hs : s.seq.state = .platenDown) (hpause : s.seq.pendingPause = none) :
    platenDownDone s = grantedOf s := by
  have hpause' : (heldOf s).seq.pendingPause = none := hpause
  rw [platenDownDone_eq hs, heldNext, hpause']
  rfl

theorem platenDownDone_paused {s : State} {cause : PauseCause} (hs : s.seq.state = .platenDown)
    (hscan : s.col.volState = .scanning) (hpause : s.seq.pendingPause = some cause) (hrest : bothAtRest s = true) :
    platenDownDone s = raise .paused [slot cause.num] { heldOf s with
      col := { s.col with volState := .paused }
      seq := { (heldOf s).seq with pendingPause := none, hold := false, waiting := false } } := by
  have hpause' : (heldOf s).seq.pendingPause = some cause := hpause
  have hrest' : bothAtRest (heldOf s) = true := hrest
  rw [platenDownDone_eq hs, heldNext, hpause']
  simp only [hrest', if_true]
  exact pauseVolume_rest (s := heldOf s) hscan hrest

theorem arrivesActive_platenDown {s t : State} (hs : s.seq.state = .platenDown) (ht : platenDownDone s = t)
    (hmanual : t.seq.manual = none) : arrivesActive .platenDown s = t := by
  have hdone : (if s.seq.state = .platenDown then platenDownDone s else s) = t := (if_pos hs).trans ht
  exact (congrArg (completeManual .platenDown) hdone).trans (completeManual_none (by rw [hmanual]; nofun))

theorem arrivesActive_home {s t : State} (hs : s.seq.state = .home) (ht : homeDone s = t)
    (hmanual : t.seq.manual = none) : arrivesActive .home s = t := by
  have hdone : (if s.seq.state = .home then homeDone s else s) = t := (if_pos hs).trans ht
  exact (congrArg (completeManual .armHome) hdone).trans (completeManual_none (by rw [hmanual]; nofun))

/-! ### What follows once the hold is granted -/

section
variable {s : State} (hs : s.seq.state = .platenDown)
include hs

theorem inView_granted (b : Side) : inView (grantedOf s) b = inView s b :=
  inView_sides (s := s) (t := grantedOf s) rfl rfl (s.seq.state.showsSides_iff.1 (congrArg _ hs))
    ((SeqState.showsSides_iff _).1 rfl) b

theorem pendingInView_granted (b : Side) : pendingInView (grantedOf s) b = pendingInView s b :=
  pendingInView_congr (s := s) (t := grantedOf s) rfl (inView_granted hs b)

theorem noneInViewPending_granted : noneInViewPending (grantedOf s) = noneInViewPending s :=
  noneInViewPending_congr (s := s) (t := grantedOf s) rfl (inView_granted hs)

theorem react_granted_dark (hscan : s.col.volState = .scanning) (hpause : s.seq.pendingPause = none)
    (hview : noneInViewPending s = false) (hdark : captureAllowed s = false) : react (grantedOf s) = grantedOf s := by
  have hsettled : isSettled (grantedOf s) = false := by
    simp [isSettled, noneInViewPending_granted hs, hview]
  rw [react_held (s := grantedOf s) (offerBoth_dark (by exact hdark)) rfl hscan,
    reactHeld_unsettled (s := grantedOf s) rfl hsettled hpause rfl]

theorem react_granted_open (hscan : s.col.volState = .scanning) (hpause : s.seq.pendingPause = none)
    (hview : noneInViewPending s = false) (hopen : captureAllowed s = true) (hlaw : settingsLaw s)
    (hfresh : ∀ b, s.chan b = .afterReset ∧ (s.port b).state = .idle) :
    react (grantedOf s) = bothOffered (grantedOf s) := by
  have hbeside := bothOffered_beside (grantedOf s)
  have hheld : isHeld (grantedOf s) = true := by simpa [isHeld, grantedOf] using hscan
  have hoffer := offerBoth_fresh (s := grantedOf s) hheld hopen hfresh hlaw
  have hcol : (bothOffered (grantedOf s)).col = (grantedOf s).col := by rw [hbeside]
  have hseq : (bothOffered (grantedOf s)).seq = (grantedOf s).seq := by rw [hbeside]
  have hnone : noneInViewPending (bothOffered (grantedOf s)) = false := by
    have h := noneInViewPending_congr (s := grantedOf s) (t := bothOffered (grantedOf s)) hcol
      fun b => inView_congr (s := grantedOf s) hcol (by rw [hseq]) (by rw [hseq]) (by rw [hseq]) (by rw [hseq]) b
    rw [h, noneInViewPending_granted hs, hview]
  have hsettled : isSettled (bothOffered (grantedOf s)) = false := by simp [isSettled, hnone]
  rw [react_held hoffer (by rw [hseq]; rfl) (by rw [hcol]; exact hscan), reactHeld_unsettled (by rw [hseq]; rfl) hsettled
    (by rw [hseq]; exact hpause) (by rw [hseq]; rfl)]

theorem react_granted_settled (hscan : s.col.volState = .scanning) (hpause : s.seq.pendingPause = none)
    (hview : noneInViewPending s = true) (hfresh : ∀ b, s.chan b = .afterReset) :
    react (grantedOf s) = settledFold (openingDone (grantedOf s)) := by
  have hpasses (b : Side) : pendingInView (grantedOf s) b = none :=
    (pendingInView_granted hs b).trans ((noneInViewPending_iff s).1 hview b)
  have hoffer : offerBoth (grantedOf s) = grantedOf s := by
    rw [offerBoth, offer_passes (s := grantedOf s) (hfresh .left) (hpasses .left),
      offer_passes (s := grantedOf s) (hfresh .right) (hpasses .right)]
  have hrest : bothAtRest s = true := by
    refine (bothAtRest_iff s).2 fun b => ?_
    rw [hfresh b]
    rfl
  have hsettled : isSettled (grantedOf s) = true :=
    (isSettled_iff _).2 ⟨rfl, hscan, rfl, hrest, (noneInViewPending_granted hs).trans hview⟩
  rw [react_held hoffer rfl hscan, reactHeld_settled hsettled rfl, settledOpening_noPause (by exact hpause)]

end

theorem inView_arrived (i : Input) (active : Bool) (s : State) (b : Side) : inView (arrived i active s) b = inView s b :=
  inView_congr (s := s) (t := arrived i active s) rfl rfl rfl rfl rfl b

theorem pendingInView_arrived (i : Input) (active : Bool) (s : State) (b : Side) :
    pendingInView (arrived i active s) b = pendingInView s b :=
  pendingInView_congr (s := s) (t := arrived i active s) rfl (inView_arrived i active s b)

theorem noneInViewPending_arrived (i : Input) (active : Bool) (s : State) :
    noneInViewPending (arrived i active s) = noneInViewPending s :=
  noneInViewPending_congr (s := s) (t := arrived i active s) rfl (inView_arrived i active s)

/-- A raise beside the decision at the end of a volume: with nothing PENDING the volume is PAUSED (02 R38). -/
theorem decideTurn_volumeEnd {s : State} (hscan : s.col.volState = .scanning) (hrest : bothAtRest s = true)
    (hpause : s.seq.pendingPause = none) (hnone : ∀ leaf f, stateOf s (.side leaf f) ≠ some .pending) : decideTurn s =
      raise .paused [3] (raise .volumeEnd [slot s.seq.p] { s with
        col := { s.col with volState := .paused }, seq := { s.seq with hold := false, waiting := false } }) := by
  have hseq : ({ s.seq with hold := false, waiting := false } : Sequencer) =
      { s.seq with pendingPause := none, hold := false, waiting := false } := by rw [← hpause]
  rw [decideTurn_end (pendingAhead_none hnone), hseq]
  refine (pauseVolume_rest (s := raise .volumeEnd [slot s.seq.p] s) hscan hrest).trans
    (congrArg (raise .paused [3]) ?_)
  exact Eq.symm (raise_beside (chans := s.chans) (by simp [hscan]))

/-- The end of the volume at an opening just settled (02 R37, R38). -/
theorem settledTurn_volumeEnd {s : State} (hscan : s.col.volState = .scanning) (hrest : bothAtRest s = true)
    (hpause : s.seq.pendingPause = none) (hstep : s.seq.pendingStep = none) (hmode : s.seq.mode ≠ .step)
    (hnone : ∀ leaf f, stateOf s (.side leaf f) ≠ some .pending) : settledTurn (openingDone (grantedOf s)) =
      raise .paused [3] (raise .volumeEnd [slot s.seq.p] { openingDone (grantedOf s) with
        col := { s.col with volState := .paused }, seq := { (grantedOf s).seq with hold := false } }) :=
  (settledTurn_decide (s := openingDone (grantedOf s)) hstep hmode).trans
    (decideTurn_volumeEnd (s := openingDone (grantedOf s)) hscan hrest hpause hnone)

theorem inView_openingDone (s : State) (b : Side) : inView (openingDone s) b = inView s b :=
  inView_congr (s := s) (t := openingDone s) rfl rfl rfl rfl rfl b

/-- With no fold-out on a face in view the settled opening goes on to the choice of the turn. -/
theorem settledFold_openingDone {s : State} (hstate : s.seq.state = .platenDown)
    (hfold : ∀ b leaf f, inView s b = some (.side leaf f) → (leafAt s leaf).foldout = none) :
    settledFold (openingDone (grantedOf (arrived .platenDown true s))) =
      settledTurn (openingDone (grantedOf (arrived .platenDown true s))) := by
  refine settledFold_none fun b => foldoutToOpen_none fun leaf f hview => ?_
  rw [inView_openingDone, inView_granted (s := arrived .platenDown true s) hstate, inView_arrived] at hview
  exact hfold b leaf f hview

section
variable {s : State} (hstart : s.start ≠ .held) (hstate : s.seq.state = .platenDown)
include hstart hstate

theorem exec_platenDown {t : State} (ht : platenDownDone (arrived .platenDown true s) = t)
    (hnone : t.seq.manual = none) : exec .platenDownArrival s = .next (idleBoundary (react t)) :=
  exec_arrival hstart rfl (arrivesActive_platenDown (s := arrived .platenDown true s) hstate ht hnone)

theorem exec_platenDown_granted {t : State} (hmanual : s.seq.manual = none) (hpause : s.seq.pendingPause = none)
    (hreact : react (grantedOf (arrived .platenDown true s)) = t) :
    exec .platenDownArrival s = .next (idleBoundary t) := by
  have hdone := platenDownDone_granted (s := arrived .platenDown true s) hstate hpause
  rw [exec_platenDown hstart hstate hdone hmanual, hreact]

theorem exec_platenDown_paused {cause : PauseCause} (hmanual : s.seq.manual = none)
    (hscan : s.col.volState = .scanning) (hpause : s.seq.pendingPause = some cause) (hrest : bothAtRest s = true) :
    exec .platenDownArrival s = .next (idleBoundary (raise .paused [slot cause.num] { heldOf (arrived .platenDown true s) with
      col := { s.col with volState := .paused }
      seq := { (heldOf (arrived .platenDown true s)).seq with
        pendingPause := none, hold := false, waiting := false } })) := by
  have hdone := platenDownDone_paused (s := arrived .platenDown true s) hstate hscan hpause hrest
  rw [exec_platenDown hstart hstate hdone hmanual]
  exact congrArg (fun t => Host.Outcome.next (idleBoundary t)) (react_still (by exact nofun))

end

/-- Settles O39. -/
theorem theOpeningIsPresentedAndHeld : Obligations.TheOpeningIsPresentedAndHeld := by
  intro s hstart hscan hmanual
  simp only [arrived_eq]
  refine ⟨fun hstate hcontact => ?_, fun side hstate => ⟨fun hother => ?_, fun hother hdown => ?_⟩,
    fun hstate => ⟨fun cause hpause hrest => ?_, fun hpause hview hdark => ?_,
      fun hpause hview hopen hlaw hfresh => ?_, fun hpause hview hfresh hfold hstep => ?_⟩⟩
  · have hdone := homeDone_to (s := arrived .home true s) (congrArg SeqState.showsSides hstate) (hstate ▸ nofun) hcontact
    exact exec_arrives hstart rfl (arrivesActive_home (s := arrived .home true s) hstate hdone hmanual) rfl
  · exact exec_contactArrives hstart (contactArrives_first (s := arrived (contactInput side) true s) hstate
      ((bothContacts_set _ _).trans hother)) (congrArg SeqState.isRest hstate)
  · have hdown' : (arrived (contactInput side) true s).seq.levels.get .platenDown = false :=
      (Inputs.get_set_ne (by cases side <;> nofun)).trans hdown
    exact exec_contactArrives hstart (contactArrives_second (s := arrived (contactInput side) true s) hstate
      ((bothContacts_set _ _).trans hother) hdown') rfl
  · have h := exec_platenDown_paused hstart hstate hmanual hscan hpause hrest
    exact h
  · have h := exec_platenDown_granted hstart hstate hmanual hpause
      (react_granted_dark (s := arrived .platenDown true s) hstate hscan hpause
        ((noneInViewPending_arrived ..).trans hview) hdark)
    exact h
  · have h := exec_platenDown_granted hstart hstate hmanual hpause
      (react_granted_open (s := arrived .platenDown true s) hstate hscan hpause
        ((noneInViewPending_arrived ..).trans hview) hopen hlaw hfresh)
    refine ⟨bothOffered (grantedOf (arrived .platenDown true s)), h, bothOffered_beside _, fun b => ?_⟩
    have hpending := (pendingInView_granted (s := arrived .platenDown true s) hstate b).trans (pendingInView_arrived ..)
    obtain ⟨hpass, htake⟩ := bothOffered_at (grantedOf (arrived .platenDown true s)) b
    refine ⟨fun hnone => ?_, fun x hx hp => ?_⟩
    · rw [any_inView, Option.isSome_eq_false_iff, Option.isNone_iff_eq_none] at hnone
      obtain ⟨hchan, hport⟩ := hpass (hpending.trans hnone)
      exact ⟨hchan.trans (hfresh b).1, hport⟩
    · exact htake x (hpending.trans (Option.filter_eq_some_iff.2 ⟨hx, hp⟩))
  · have hreact := react_granted_settled (s := arrived .platenDown true s) hstate hscan hpause
      ((noneInViewPending_arrived ..).trans hview) hfresh
    have hturn := hreact.trans (settledFold_openingDone hstate hfold)
    refine ⟨fun hmode => ?_, fun hmode hnone => ?_⟩
    · have hwait := settledTurn_step (s := openingDone (grantedOf (arrived .platenDown true s))) hstep hmode
      have h := exec_platenDown_granted hstart hstate hmanual hpause (hturn.trans hwait)
      exact h
    · have hrest : bothAtRest s = true := (bothAtRest_iff s).2 fun b => (hfresh b).symm ▸ rfl
      have hend := settledTurn_volumeEnd (s := arrived .platenDown true s) hscan hrest hpause hstep hmode hnone
      have h := exec_platenDown_granted hstart hstate hmanual hpause (hturn.trans hend)
      exact h

end Sys2Proof.Machine
end

section
/-! PROOFS of the family `other`: when a pause waits and when it is taken (02 R46, R47), and the link's loss and return
(08 R157, R165). -/
namespace Sys2Proof.Machine

/-! ### A channel at rest that can take up a target (05 R96) -/

/-- Bank `b` has something to take up, were capture allowed and the opening held. -/
def OfferedAt (s : State) (b : Side) : Prop :=
  (s.chan b).atRest = true ∧
    (((s.chan b).state = .idle ∧ (s.chan b).target ≠ none) ∨ ∃ x, inView s b = some x ∧ isPending s x = true)

/-- Some channel at rest can take up a target. -/
def Offered (s : State) : Prop := s.seq.hold = true ∧ captureAllowed s = true ∧ ∃ b, OfferedAt s b

theorem offer_unoffered {b : Side} {s : State} (h : ¬OfferedAt s b) : offer b s = s := by
  have hview (hrest : (s.chan b).atRest = true) : ∀ x, inView s b = some x → ¬isPending s x = true :=
    fun x hx hp => h ⟨hrest, .inr ⟨x, hx, hp⟩⟩
  rw [offer]
  split
  next =>
    cases hstate : (s.chan b).state with
    | arming | gating | firing | awaiting => rfl
    | idle =>
      have hrest : (s.chan b).atRest = true := (Channel.atRest_iff _).2 (.inl hstate)
      cases htarget : (s.chan b).target with
      | some x => exact absurd ⟨hrest, .inl ⟨hstate, htarget ▸ nofun⟩⟩ h
      | none =>
        cases hx : inView s b with
        | none => rfl
        | some x => exact if_neg (hview hrest x hx)
    | done =>
      have hrest : (s.chan b).atRest = true := (Channel.atRest_iff _).2 (.inr hstate)
      cases hx : inView s b with
      | none => rfl
      | some x => exact if_neg (hview hrest x hx)
  next => rfl

/-- No offer is taken where no channel at rest can take one up. -/
theorem offerBoth_unoffered {s : State} (h : ¬Offered s) : offerBoth s = s := by
  by_cases hheld : isHeld s = true
  · have hhold : s.seq.hold = true := by
      simp only [isHeld, Bool.and_eq_true] at hheld
      exact hheld.1.1
    by_cases hopen : captureAllowed s = true
    · have hnone (b : Side) : ¬OfferedAt s b := fun hb => h ⟨hhold, hopen, b, hb⟩
      rw [offerBoth, offer_unoffered (hnone .left), offer_unoffered (hnone .right)]
    · exact offerBoth_dark (Bool.eq_false_iff.2 hopen)
  · exact offerBoth_out (Bool.eq_false_iff.2 hheld)

/-! ### A pause pending -/

/-- The part with a pause pending. -/
def pausing (cause : PauseCause) (s : State) : State := s.setSeq { s.seq with pendingPause := some cause }

theorem offered_pausing {cause : PauseCause} {s : State} (h : ¬Offered s) : ¬Offered (pausing cause s) := by
  intro ⟨hhold, hopen, b, hrest, hb⟩
  have hview : inView (pausing cause s) b = inView s b :=
    inView_congr (s := s) (t := pausing cause s) rfl rfl rfl rfl rfl b
  rw [hview] at hb
  exact h ⟨hhold, hopen, b, hrest, hb⟩

/-- A pause taken at a safe point: the volume PAUSED and PAUSED raised (02 R47). -/
def pausedOf (cause : PauseCause) (s : State) : State :=
  raise .paused [slot cause.num] { s with
    col := { s.col with volState := .paused }, seq := { s.seq with hold := false, waiting := false } }

theorem takePause_taken {cause : PauseCause} {t : State} (hpause : t.seq.pendingPause = some cause)
    (hscan : t.col.volState = .scanning) (hstate : t.seq.state.isRest = true) (hrest : bothAtRest t = true) :
    takePause t = raise .paused [slot cause.num] { t with
      col := { t.col with volState := .paused }
      seq := { t.seq with pendingPause := none, hold := false, waiting := false } } := by
  rw [takePause, hpause, ← pauseVolume_rest hscan hrest]
  exact if_pos (by rw [hstate, hrest]; rfl)

theorem takePause_waits {t : State} (hrest : bothAtRest t = false) : takePause t = t := by
  rw [takePause]
  cases t.seq.pendingPause with
  | none => rfl
  | some cause => exact if_neg (by simp [hrest])

/-- A pause that was not pending before is gone once taken. -/
theorem pausedOf_eq {cause : PauseCause} {s : State} (hnone : s.seq.pendingPause = none) : pausedOf cause s =
    raise .paused [slot cause.num] { s with
      col := { s.col with volState := .paused }
      seq := { s.seq with pendingPause := none, hold := false, waiting := false } } := by
  rw [pausedOf, ← hnone]

/-- The safe points of R46 at which no channel is offered anything and no settled opening is still to be decided. -/
def SafePoint (s : State) : Prop :=
  bothAtRest s = true ∧
    (s.seq.state = .handWait ∨ s.seq.state = .foldWait ∨ (s.seq.state = .panelHeld ∧ ¬Offered s) ∨
      (s.seq.state = .held ∧ s.seq.hold = true ∧ ¬Offered s ∧ (noneInViewPending s = true → s.seq.waiting = true)))

theorem SeqState.isRest_of_isMotion {st : SeqState} (h : st.isMotion = true) : st.isRest = false := by
  cases st <;> simp_all [SeqState.isMotion, SeqState.isRest]

theorem react_pausing_motion {cause : PauseCause} {s : State} (hmotion : s.seq.state.isMotion = true) :
    react (pausing cause s) = pausing cause s := react_away (SeqState.isRest_of_isMotion hmotion)

theorem noneInViewPending_pausing (cause : PauseCause) (s : State) :
    noneInViewPending (pausing cause s) = noneInViewPending s :=
  noneInViewPending_congr (s := s) (t := pausing cause s) rfl
    fun b => inView_congr (s := s) (t := pausing cause s) rfl rfl rfl rfl rfl b

section
variable {cause : PauseCause} {s : State} (hscan : s.col.volState = .scanning) (hnone : s.seq.pendingPause = none)
include hscan

theorem react_pausing_held (hheld : s.seq.state = .held) (h : ¬Offered s) :
    react (pausing cause s) = reactHeld (pausing cause s) :=
  react_held (offerBoth_unoffered (offered_pausing h)) hheld hscan

/-- The pause waits for a channel at work under the hold. -/
theorem react_pausing_working (hheld : s.seq.state = .held) (hhold : s.seq.hold = true) (hrest : bothAtRest s = false)
    (h : ¬Offered s) : react (pausing cause s) =
      s.setSeq { s.seq with pendingPause := some cause, waiting := false } := by
  have hsettled : isSettled (pausing cause s) = false := Bool.eq_false_iff.2 fun hs => by
    obtain ⟨_, _, _, hboth, _⟩ := (isSettled_iff _).1 hs
    exact nomatch hrest.symm.trans hboth
  have hhold' : (pausing cause s).seq.hold = true := hhold
  rw [react_pausing_held hscan hheld h, reactHeld, hhold', hsettled]
  exact takePause_waits (t := s.setSeq { s.seq with pendingPause := some cause, waiting := false }) hrest

/-- With the hold withdrawn the slip fault takes the pause's place, once the channels rest. -/
theorem react_pausing_unheld (hheld : s.seq.state = .held) (hhold : s.seq.hold = false) (hrest : bothAtRest s = false) :
    react (pausing cause s) = pausing cause s :=
  react_unheld_working (s := pausing cause s) hheld hscan hhold hrest

theorem react_panelHeld (hheld : s.seq.state = .panelHeld) (h : ¬Offered s) : react s = reactPanel s := by
  simp only [react, offerBoth_unoffered h, reactSeq, hscan, if_true, hheld]

theorem react_pausing_panel {b : Side} (hheld : s.seq.state = .panelHeld) (hbank : s.seq.stackBank = some b)
    (hwork : (s.chan b).atRest = false) (h : ¬Offered s) : react (pausing cause s) = pausing cause s := by
  have hrest : bothAtRest (pausing cause s) = false := Bool.eq_false_iff.2 fun hboth =>
    nomatch hwork.symm.trans ((bothAtRest_iff _).1 hboth b)
  have hstack : stackChannelAtRest (pausing cause s) = false := by
    have hbank' : (pausing cause s).seq.stackBank = some b := hbank
    rw [stackChannelAtRest, hbank']
    exact hwork
  rw [react_panelHeld (s := pausing cause s) hscan hheld (offered_pausing h), reactPanel, hrest, hstack]
  simp

include hnone

/-- A pause asked for at a safe point is taken at once. -/
theorem react_pausing_safe (hsafe : SafePoint s) : react (pausing cause s) = pausedOf cause s := by
  obtain ⟨hrest, hwhere⟩ := hsafe
  have taken (hstate : s.seq.state.isRest = true) : takePause (pausing cause s) = pausedOf cause s :=
    (takePause_taken (t := pausing cause s) rfl hscan hstate hrest).trans (pausedOf_eq hnone).symm
  rcases hwhere with hhand | hfold | ⟨hpanel, h⟩ | ⟨hheld, hhold, h, hwait⟩
  · rw [react_waits (s := pausing cause s) (.inl hhand)]
    exact (if_pos hscan).trans (taken (congrArg SeqState.isRest hhand))
  · rw [react_waits (s := pausing cause s) (.inr hfold)]
    exact (if_pos hscan).trans (taken (congrArg SeqState.isRest hfold))
  · rw [react_panelHeld (s := pausing cause s) hscan hpanel (offered_pausing h), reactPanel]
    exact (if_pos (by rw [show bothAtRest (pausing cause s) = true from hrest]; rfl)).trans
      (taken (congrArg SeqState.isRest hpanel))
  · have hhold' : (pausing cause s).seq.hold = true := hhold
    rw [react_pausing_held hscan hheld h, reactHeld, hhold']
    cases hsettled : isSettled (pausing cause s) with
    | true =>
      obtain ⟨_, _, _, _, hview⟩ := (isSettled_iff _).1 hsettled
      have hwaiting : (pausing cause s).seq.waiting = true := hwait ((noneInViewPending_pausing cause s).symm.trans hview)
      rw [hwaiting]
      exact taken (congrArg SeqState.isRest hheld)
    | false =>
      exact (takePause_taken (t := (pausing cause s).setSeq { (pausing cause s).seq with waiting := false }) rfl hscan
        (congrArg SeqState.isRest hheld) hrest).trans (pausedOf_eq hnone).symm

theorem requestPause_asked : requestPause cause s = react (pausing cause s) := if_pos ⟨hscan, hnone⟩

end

theorem requestPause_none {cause : PauseCause} {s : State}
    (h : s.col.volState ≠ .scanning ∨ s.seq.pendingPause ≠ none) : requestPause cause s = s :=
  if_neg fun ⟨hscan, hnone⟩ => h.elim (· hscan) (· hnone)

/-- Settles O17. -/
theorem pauseIsTakenAtASafePoint : Obligations.PauseIsTakenAtASafePoint := by
  intro tag s htakes
  have accepted {t : State} (hvol : s.col.volState = .scanning ∨ s.col.volState = .paused)
      (ht : requestPause .pause s = t) : exec (.pause tag []) s = .next (giveReply tag 0x21 ⟨.ok, [], t⟩) := by
    refine exec_answers htakes rfl ?_
    rw [pauseRule, if_neg (by rcases hvol with h | h <;> simp [h]), if_neg (by simp), ht]
  refine ⟨fun h => ?_, fun hscan hnone => ?_⟩
  · rcases h with hpaused | ⟨hscan, hpending⟩
    · exact accepted (.inr hpaused) (requestPause_none (.inl (hpaused ▸ nofun)))
    · exact accepted (.inl hscan) (requestPause_none (.inr hpending))
  have asked {t : State} (ht : react (pausing .pause s) = t) :=
    accepted (.inl hscan) ((requestPause_asked hscan hnone).trans ht)
  exact ⟨fun hmotion => asked (react_pausing_motion hmotion),
    fun hheld hhold hrest h => asked (react_pausing_working hscan hheld hhold hrest h),
    fun hheld hhold hrest => asked (react_pausing_unheld hscan hheld hhold hrest),
    fun b hheld hbank hwork h => asked (react_pausing_panel hscan hheld hbank hwork h),
    fun hsafe => asked (react_pausing_safe hscan hnone hsafe)⟩

/-! ### The link's loss and return (08 R157, R165) -/

/-- The part with lock lost, LINK_FAULT raised and the frame in reception dropped. -/
def lost (s : State) : State :=
  raise .linkFault [1, 0] { s with link := { s.link with lock := false, up := false, incoming := [] } }

theorem inView_lost (s : State) (b : Side) : inView (lost s) b = inView s b :=
  inView_congr (s := s) (t := lost s) rfl rfl rfl rfl rfl b

theorem offered_lost {s : State} (h : ¬Offered s) : ¬Offered (lost s) := by
  intro ⟨hhold, hopen, b, hrest, hb⟩
  rw [inView_lost] at hb
  exact h ⟨hhold, hopen, b, hrest, hb⟩

theorem safePoint_lost {s : State} (h : SafePoint s) : SafePoint (lost s) := by
  obtain ⟨hrest, hwhere⟩ := h
  refine ⟨hrest, ?_⟩
  rcases hwhere with hhand | hfold | ⟨hpanel, h⟩ | ⟨hheld, hhold, h, hwait⟩
  · exact .inl hhand
  · exact .inr (.inl hfold)
  · exact .inr (.inr (.inl ⟨hpanel, offered_lost h⟩))
  · exact .inr (.inr (.inr ⟨hheld, hhold, offered_lost h, fun hview =>
      hwait ((noneInViewPending_congr (s := s) (t := lost s) rfl (inView_lost s)).symm.trans hview)⟩))

theorem loseLock_down {s : State} (hdown : s.link.up = false) :
    loseLock s = { s with link := { s.link with lock := false, incoming := [] } } := by
  rw [loseLock, if_neg (by simp [hdown]), ← hdown]

theorem loseLock_up {s t : State} (hup : s.link.up = true) (hclear : s.link.resetWaiting = false ∨ s.link.replies = [])
    (ht : requestPause .link (lost s) = t) (hlink : t.link = (lost s).link) : loseLock s = t := by
  subst ht
  refine (if_pos hup).trans (if_neg ?_)
  rw [show (requestPause .link (raise _ _ _)).link = (lost s).link from hlink]
  rintro ⟨hwaits, hreplies⟩
  exact hclear.elim (fun h => nomatch hwaits.symm.trans h) (fun h => hreplies h)

theorem loseLock_reset {s : State} (hup : s.link.up = true) (hwaits : s.link.resetWaiting = true)
    (hreplies : s.link.replies ≠ []) (hstart : s.start ≠ .held) (ht : requestPause .link (lost s) = lost s) :
    loseLock s = resetAll .linkReset (lost s) := by
  have hbegin : beginReset .linkReset (lost s) = resetAll .linkReset (lost s) := if_neg hstart
  rw [loseLock, if_pos hup, ← hbegin]
  simp only [show requestPause .link (raise _ _ _) = lost s from ht]
  exact if_pos ⟨hwaits, hreplies⟩

/-- A link pause taken at the loss of lock. -/
theorem pausedOf_lost {s : State} (hscan : s.col.volState = .scanning) : pausedOf .link (lost s) =
    raise .paused [1] (raise .linkFault [1, 0] { s with
      link := { s.link with lock := false, up := false, incoming := [] }
      col := { s.col with volState := .paused }
      seq := { s.seq with hold := false, waiting := false } }) := by
  refine congrArg (raise .paused [1]) (Eq.symm (raise_beside
    (s := { s with link := { s.link with lock := false, up := false, incoming := [] } }) (chans := s.chans) ?_))
  simp [hscan]

/-- Settles O34. -/
theorem theLinkGoesDownAndUp : Obligations.TheLinkGoesDownAndUp := by
  intro s
  refine ⟨fun hdown => ?_, fun hup hclear => ⟨fun hquiet => ?_, fun hscan hnone => ?_⟩,
    fun hup hwaits hreplies hstart hquiet => ?_, fun h => ?_, fun hrun hdown => ?_, fun hawait => ?_⟩
  · exact congrArg Host.Outcome.next (loseLock_down hdown)
  · exact congrArg Host.Outcome.next (loseLock_up hup hclear (requestPause_none (s := lost s) hquiet) rfl)
  · have asked {t : State} (ht : react (pausing .link (lost s)) = t) (hlink : t.link = (lost s).link) :
        exec .linkDown s = .next t :=
      congrArg Host.Outcome.next (loseLock_up hup hclear ((requestPause_asked (s := lost s) hscan hnone).trans ht) hlink)
    refine ⟨fun hmotion => ?_, fun hheld hhold hrest h => ?_, fun hheld hhold hrest => ?_,
      fun b hheld hbank hwork h => ?_, fun hsafe => ?_⟩
    · exact asked (react_pausing_motion (s := lost s) hmotion) rfl
    · exact asked (react_pausing_working (s := lost s) hscan hheld hhold hrest (offered_lost h)) rfl
    · exact asked (react_pausing_unheld (s := lost s) hscan hheld hhold hrest) rfl
    · exact asked (react_pausing_panel (s := lost s) hscan hheld hbank hwork (offered_lost h)) rfl
    · exact asked ((react_pausing_safe (s := lost s) hscan hnone (safePoint_lost hsafe)).trans (pausedOf_lost hscan)) rfl
  · exact congrArg Host.Outcome.next (loseLock_reset hup hwaits hreplies hstart (requestPause_none (s := lost s) hquiet))
  · refine congrArg Host.Outcome.next ?_
    rcases h with h | h | ⟨h, hup⟩
    · simp only [gainLock, h]
    · simp only [gainLock, h]
    · simp only [gainLock, h, hup, if_true]
  · refine congrArg Host.Outcome.next ?_
    simp only [gainLock, hrun, hdown]
    rfl
  · refine congrArg Host.Outcome.next ?_
    simp only [gainLock, hawait]
    rfl

end Sys2Proof.Machine
end

section
/-! PROOFS of the family `other`: the pedal, fold-outs and the held panel (02 R41, R43, R44). -/
namespace Sys2Proof.Machine

/-! ### States that show the stack -/

/-- The states in which the stack's top entry is in view of its bank. -/
def SeqState.showsStack : SeqState → Bool
  | .foldWait | .panelHeld => true
  | .stopped | .present | .platenDown | .held | .platenUp | .pick | .carry | .lay | .home | .handWait | .fault => false

theorem inView_stack {s : State} (h : s.seq.state.showsStack = true) (b : Side) : inView s b =
    if s.seq.stackBank = some b then s.seq.stack.head?.map fun e => .panel e.foldout e.panel else none := by
  cases hs : s.seq.state with
  | foldWait | panelHeld => simp only [inView, hs]
  | stopped | present | platenDown | held | platenUp | pick | carry | lay | home | handWait | fault =>
    exact absurd (hs ▸ h) nofun

/-- The bank beside the stack's sees nothing. -/
theorem inView_beside_stack {s : State} {b c : Side} (h : s.seq.state.showsStack = true)
    (hbank : s.seq.stackBank = some b) (hc : c ≠ b) : inView s c = none := by
  rw [inView_stack h, hbank, if_neg fun hb => hc (Option.some.inj hb).symm]

theorem reseat_stack {q : Sequencer} {s : State} (hs : s.seq.state.showsStack = true) (hq : q.state.showsStack = true)
    (hstack : q.stack = s.seq.stack) (hbank : q.stackBank = s.seq.stackBank) : reseat q s = s.setSeq q := by
  refine reseat_same fun b => ?_
  rw [inView_stack (s := s.setSeq q) hq, inView_stack hs]
  simp only [State.setSeq, hstack, hbank]

/-- The part with the preview cut of a bank cleared. -/
def uncut (b : Side) (s : State) : State := { s with lamps := { s.lamps with cut := s.lamps.cut.set b false } }

theorem clearStackCut_some {s : State} {b : Side} (h : s.seq.stackBank = some b) : clearStackCut s = uncut b s := by
  rw [clearStackCut, h]
  rfl

/-- A change of the stack with its bank's preview cut cleared touches no other cut. -/
theorem clearStackCut_reseat {q : Sequencer} {s : State} {b : Side} (hs : s.seq.state.showsStack = true)
    (hq : q.state.showsStack = true) (hbank : s.seq.stackBank = some b) (hkeep : q.stackBank = some b) :
    clearStackCut (reseat q s) = (uncut b s).setSeq q := by
  have hother : inView (s.setSeq q) b.other = inView s b.other := by
    have hne : b.other ≠ b := by cases b <;> nofun
    rw [inView_beside_stack hs hbank hne, inView_beside_stack (s := s.setSeq q) hq hkeep hne]
  rw [clearStackCut_some (s := reseat q s) hkeep]
  cases b with
  | left =>
    have hright : inView (s.setSeq q) .right = inView s .right := hother
    simp only [uncut, reseat, clearCuts, hright, beq_self_eq_true, Bool.and_true]
    rfl
  | right =>
    have hleft : inView (s.setSeq q) .left = inView s .left := hother
    simp only [uncut, reseat, clearCuts, hleft, beq_self_eq_true, Bool.and_true]
    rfl

theorem pushFoldout_eq (g : Nat) (s : State) : pushFoldout g s =
    clearStackCut (reseat { s.seq with stack := ⟨g, 1, .presentNext⟩ :: s.seq.stack } s) := rfl

/-- The stack replaced while its bank's panel is in view. -/
def restacked (b : Side) (es : List StackEntry) (s : State) : State := (uncut b s).setSeq { s.seq with stack := es }

/-- A replacement that leaves what the other bank sees does not show in the next one. -/
theorem reseat_uncut {q r : Sequencer} {s : State} {b : Side}
    (h : inView ((uncut b s).setSeq q) b.other = inView (uncut b s) b.other) :
    reseat r ((uncut b s).setSeq q) = reseat r (uncut b s) := by
  cases b with
  | left =>
    have hright : inView ((uncut .left s).setSeq q) .right = inView (uncut .left s) .right := h
    simp only [reseat, clearCuts, hright]
    rfl
  | right =>
    have hleft : inView ((uncut .right s).setSeq q) .left = inView (uncut .right s) .left := h
    simp only [reseat, clearCuts, hleft]
    rfl

/-- The part with its stack emptied, a RESTORE begun. -/
def emptied (b : Side) (s : State) : State :=
  (uncut b s).setSeq { s.seq with stack := [], stackBank := none, kind := some .restore }

/-! ### The panel of the top entry -/

section
variable {s : State} {e : StackEntry} {rest : List StackEntry} {b : Side} (hstack : s.seq.stack = e :: rest)
include hstack

theorem topPending_eq : topPending s = isPending s (.panel e.foldout e.panel) := by
  simp only [topPending, hstack]

theorem setPhase_eq (ph : Phase) :
    setPhase ph s = s.setSeq { s.seq with stack := { e with phase := ph } :: rest } := by
  simp only [setPhase, hstack]

/-- A done panel with no nested fold-out to open. -/
theorem panelDone_plain (hnone : nestedToOpen s e = none) :
    panelDone s = s.setSeq { s.seq with stack := { e with phase := .advanceNext } :: rest } := by
  have hnone' : nestedToOpen (setPhase .advanceNext s) e = none := by
    rw [setPhase_eq hstack]
    exact hnone
  simp only [panelDone, hstack, hnone']
  exact setPhase_eq hstack _

/-- A done panel whose nested fold-out is pushed. -/
theorem panelDone_nested {g : Nat} (hs : s.seq.state.showsStack = true) (hbank : s.seq.stackBank = some b)
    (hnested : nestedToOpen s e = some g) :
    panelDone s = restacked b (⟨g, 1, .presentNext⟩ :: { e with phase := .advanceNext } :: rest) s := by
  have hnested' : nestedToOpen (setPhase .advanceNext s) e = some g := by
    rw [setPhase_eq hstack]
    exact hnested
  have hpush : panelDone s = pushFoldout g (setPhase .advanceNext s) := by
    simp only [panelDone, hstack, hnested']
  rw [hpush, setPhase_eq hstack, pushFoldout_eq]
  exact clearStackCut_reseat (s := s.setSeq _) hs hs hbank hbank

/-- The entry advances to the next panel of its fold-out. -/
theorem advanceEntry_next (hs : s.seq.state.showsStack = true) (hbank : s.seq.stackBank = some b)
    (hmore : e.panel < ((panelsOf s e.foldout).getD []).length) :
    advanceEntry s = restacked b (⟨e.foldout, e.panel + 1, .presentNext⟩ :: rest) s := by
  simp only [advanceEntry, hstack, hmore, if_true]
  exact clearStackCut_reseat hs hs hbank hbank

/-- The entry popped to the one beneath. -/
theorem advanceEntry_pop (hs : s.seq.state.showsStack = true) (hbank : s.seq.stackBank = some b)
    (hlast : ((panelsOf s e.foldout).getD []).length ≤ e.panel) (hrest : rest ≠ []) :
    advanceEntry s = restacked b rest s := by
  obtain ⟨d, ds, rfl⟩ := List.exists_cons_of_ne_nil hrest
  simp only [advanceEntry, hstack, Nat.not_lt.2 hlast, if_false]
  exact clearStackCut_reseat hs hs hbank hbank

/-- The stack emptied: PRESENT of a RESTORE is entered. -/
theorem advanceEntry_empty (hs : s.seq.state = .foldWait) (hbank : s.seq.stackBank = some b) (hnil : rest = [])
    (hlast : ((panelsOf s e.foldout).getD []).length ≤ e.panel)
    (hcontact : (s.seq.levels.leftContact && s.seq.levels.rightContact) = false) :
    advanceEntry s = reseat { s.seq with
      state := .present, kind := some .restore, stack := [], stackBank := none
      motionLeft := motionLimit s .present, outputs := presentDrive s s.seq.outputs } (uncut b s) := by
  subst hnil
  have hshows := congrArg SeqState.showsStack hs
  have hadvance : advanceEntry s = enterPresent (emptied b s) := by
    simp only [advanceEntry, hstack, Nat.not_lt.2 hlast, if_false]
    rw [clearStackCut_reseat hshows (by exact hshows) hbank (by exact hbank)]
    rfl
  have hview : inView (emptied b s) b.other = inView (uncut b s) b.other := by
    have hne : b.other ≠ b := by cases b <;> nofun
    rw [inView_beside_stack (s := uncut b s) hshows hbank hne, inView_stack (s := emptied b s) hshows]
    rfl
  rw [hadvance, enterPresent_away (by exact hcontact)]
  exact (enterMotion_plain (s := emptied b s) (hs ▸ nofun) (hs ▸ nofun) .present _).trans (reseat_uncut hview)

end

/-! ### Leaving PANEL_HELD -/

theorem bothAtRest_of_still {s : State} (h : ∀ c, (s.chan c).state = .done ∨ ((s.chan c).state = .idle ∧
    (s.chan c).target = none)) : bothAtRest s = true :=
  (bothAtRest_iff s).2 fun c => (Channel.atRest_iff _).2 ((h c).elim .inr fun h => .inl h.1)

/-- The part in FOLD_WAIT after PANEL_HELD, both visits ended. -/
def waitingAgain (s : State) : State :=
  { s with
    chans := both .afterReset
    seq := { s.seq with
      state := .foldWait, hold := false, holdGiven := false, waiting := false, kind := none, turn := none
      motionLeft := 0 } }

theorem enterFoldWait_panel {s : State} (hs : s.seq.state = .panelHeld) (hrest : bothAtRest s = true) :
    enterFoldWait s = waitingAgain s := by
  have hgoto : goto .foldWait s = ({ s with chans := both .afterReset } : State).setSeq { s.seq with
      state := .foldWait, hold := false, holdGiven := false, waiting := false } := by
    refine (goto_leaves (.inr hs) (by rw [hs]; nofun) hrest).trans ?_
    exact reseat_stack (congrArg SeqState.showsStack hs) rfl rfl rfl
  rw [enterFoldWait, hgoto]
  rfl

theorem stackChannelAtRest_of_both {s : State} (hrest : bothAtRest s = true) : stackChannelAtRest s = true := by
  rw [stackChannelAtRest]
  cases s.seq.stackBank with
  | none => rfl
  | some b => exact (bothAtRest_iff s).1 hrest b

/-- The panel's tests while its channel rests, under no hold or with capture allowed. -/
theorem reactPanel_leaves {s : State} (hrest : bothAtRest s = true) (hpause : s.seq.pendingPause = none)
    (hopen : captureAllowed s = true ∨ s.seq.hold = false) : reactPanel s = leavePanel s := by
  have htest : (captureAllowed s || !s.seq.hold) = true := by rcases hopen with h | h <;> simp [h]
  rw [reactPanel, hpause, stackChannelAtRest_of_both hrest, htest]
  rfl

theorem reactPanel_pause {s : State} {cause : PauseCause} (hs : s.seq.state = .panelHeld)
    (hscan : s.col.volState = .scanning) (hrest : bothAtRest s = true) (hpause : s.seq.pendingPause = some cause) :
    reactPanel s = raise .paused [slot cause.num] { s with
      col := { s.col with volState := .paused }
      seq := { s.seq with pendingPause := none, hold := false, waiting := false } } := by
  rw [reactPanel, if_pos (by rw [hpause, hrest]; rfl)]
  exact takePause_taken hpause hscan (congrArg SeqState.isRest hs) hrest

/-- PANEL_HELD stands under the hold while capture is not allowed. -/
theorem reactPanel_dark {s : State} (hpause : s.seq.pendingPause = none) (hdark : captureAllowed s = false)
    (hhold : s.seq.hold = true) : reactPanel s = s := by
  rw [reactPanel, hpause, hdark, hhold]
  simp

/-- PANEL_HELD stands while its channel works. -/
theorem reactPanel_working {s : State} {b : Side} (hbank : s.seq.stackBank = some b) (hwork : (s.chan b).atRest = false) :
    reactPanel s = s := by
  have hrest : bothAtRest s = false := Bool.eq_false_iff.2 fun h => nomatch hwork.symm.trans ((bothAtRest_iff s).1 h b)
  have hstack : stackChannelAtRest s = false := by rw [stackChannelAtRest, hbank]; exact hwork
  rw [reactPanel, hrest, hstack]
  simp

theorem leavePanel_pending {s : State} {e : StackEntry} {rest : List StackEntry} (hs : s.seq.state = .panelHeld)
    (hstack : s.seq.stack = e :: rest) (hrest : bothAtRest s = true)
    (hpending : isPending s (.panel e.foldout e.panel) = true) : leavePanel s = waitingAgain s := by
  rw [leavePanel, topPending_eq hstack, if_pos hpending, enterFoldWait_panel hs hrest]

theorem leavePanel_done {s : State} {e : StackEntry} {rest : List StackEntry} (hs : s.seq.state = .panelHeld)
    (hstack : s.seq.stack = e :: rest) (hrest : bothAtRest s = true)
    (hpending : isPending s (.panel e.foldout e.panel) = false) (hnone : nestedToOpen s e = none) :
    leavePanel s = waitingAgain (s.setSeq { s.seq with stack := { e with phase := .advanceNext } :: rest }) := by
  rw [leavePanel, topPending_eq hstack, if_neg (Bool.eq_false_iff.1 hpending), panelDone_plain hstack hnone]
  exact enterFoldWait_panel (s := s.setSeq { s.seq with stack := { e with phase := .advanceNext } :: rest }) hs hrest

theorem leavePanel_nested {s : State} {e : StackEntry} {rest : List StackEntry} {b : Side} {g : Nat}
    (hs : s.seq.state = .panelHeld) (hstack : s.seq.stack = e :: rest) (hbank : s.seq.stackBank = some b)
    (hrest : bothAtRest s = true) (hpending : isPending s (.panel e.foldout e.panel) = false)
    (hnested : nestedToOpen s e = some g) :
    leavePanel s = waitingAgain (restacked b (⟨g, 1, .presentNext⟩ :: { e with phase := .advanceNext } :: rest) s) := by
  rw [leavePanel, topPending_eq hstack, if_neg (Bool.eq_false_iff.1 hpending),
    panelDone_nested hstack (congrArg SeqState.showsStack hs) hbank hnested]
  exact enterFoldWait_panel (s := restacked b _ s) hs hrest

/-! ### The nested fold-out of a panel -/

theorem nestedToOpen_eq_some {s : State} {e : StackEntry} {g : Nat} : nestedToOpen s e = some g ↔
    (((panelsOf s e.foldout).getD [])[e.panel - 1]?).bind (·.nested) = some g ∧
      ∃ x ∈ panelsUnder s (coveredFoldouts s g), stateOf s x = some .pending := by
  simp only [nestedToOpen, panelAt, Option.filter_eq_some_iff, pendingBelow, List.any_eq_true, isPending, beq_iff_eq]

theorem nestedToOpen_eq_none {s : State} {e : StackEntry} : nestedToOpen s e = none ↔
    ∀ g, ¬((((panelsOf s e.foldout).getD [])[e.panel - 1]?).bind (·.nested) = some g ∧
      ∃ x ∈ panelsUnder s (coveredFoldouts s g), stateOf s x = some .pending) := by
  rw [Option.eq_none_iff_forall_ne_some]
  simp only [ne_eq, nestedToOpen_eq_some]

theorem panelsOf_congr {s t : State} (hc : t.col = s.col) : panelsOf t = panelsOf s := by
  funext f
  rw [panelsOf, hc, panelsOf]

theorem foldTree_congr {s t : State} (hc : t.col = s.col) (depth f : Nat) : foldTree t depth f = foldTree s depth f := by
  induction depth generalizing f with
  | zero => rfl
  | succ depth ih => simp only [foldTree, panelsOf_congr hc, ih]

theorem isPending_congr {s t : State} (hc : t.col = s.col) : isPending t = isPending s := by
  funext x
  cases x <;> simp only [isPending, stateOf, fieldsOf, panelsOf, hc]

theorem pendingBelow_congr {s t : State} (hc : t.col = s.col) : pendingBelow t = pendingBelow s := by
  funext f
  simp only [pendingBelow, panelsUnder, coveredFoldouts, foldTree_congr hc, panelsOf_congr hc, isPending_congr hc]

theorem nestedToOpen_congr {s t : State} (hc : t.col = s.col) (e : StackEntry) :
    nestedToOpen t e = nestedToOpen s e := by
  rw [nestedToOpen, panelAt, panelsOf_congr hc, pendingBelow_congr hc, nestedToOpen, panelAt]

/-! ### The pedal at the sequencer -/

/-- The part at a pedal press, the dark delay restarted. -/
def pressed (s : State) : State := restartDark (arrived .pedal true s)

theorem pressed_eq (s : State) : restartDark (arrived .pedal true s) = pressed s := rfl

theorem exec_pedal {s t : State} (hstart : s.start ≠ .held) (h : react (pedalAtSequencer (pressed s)) = t) :
    exec (.pedalPress true) s = .next (idleBoundary t) :=
  h ▸ exec_arrival hstart rfl rfl

section
variable {s : State}

theorem pedal_away (h : s.seq.state.isRest = false ∨ s.col.volState ≠ .scanning) : pedalAtSequencer s = s := by
  rw [pedalAtSequencer]
  split
  next hscan =>
    have haway := h.resolve_right (not_not.2 hscan)
    cases hs : s.seq.state with
    | handWait | foldWait | panelHeld => exact nomatch (congrArg SeqState.isRest hs).symm.trans haway
    | stopped | present | platenDown | held | platenUp | pick | carry | lay | home | fault => rfl
  next => rfl

theorem pedal_held (hs : s.seq.state = .held) : pedalAtSequencer s = s := by
  simp only [pedalAtSequencer, hs, ite_self]

theorem pedal_handWait (hscan : s.col.volState = .scanning) (hs : s.seq.state = .handWait) :
    pedalAtSequencer s = handPress s := by
  simp only [pedalAtSequencer, hscan, if_true, hs]

theorem pedal_foldWait (hscan : s.col.volState = .scanning) (hs : s.seq.state = .foldWait) :
    pedalAtSequencer s = foldPress s := by
  simp only [pedalAtSequencer, hscan, if_true, hs]

theorem pedal_panelHeld (hscan : s.col.volState = .scanning) (hs : s.seq.state = .panelHeld) :
    pedalAtSequencer s = withdrawHold s := by
  simp only [pedalAtSequencer, hscan, if_true, hs]

/-! ### A press in HAND_WAIT -/

/-- p once the owed turn is made good (02 R41). -/
def paidPointer (s : State) : Nat :=
  match s.seq.owed with
  | some .forward => presentAfter s s.seq.p
  | some .backward => (presentBefore s s.seq.p).getD s.seq.p
  | none => s.seq.p

theorem paidPointer_congr {t : State} (hc : t.col = s.col) (hp : t.seq.p = s.seq.p) (ho : t.seq.owed = s.seq.owed) :
    paidPointer t = paidPointer s := by
  simp only [paidPointer, ho, hp, presentAfter_congr hc, presentBefore_congr hc]

/-- The sequencer with the owed turn made good. -/
def paidSeq (s : State) : Sequencer :=
  { s.seq with
    p := paidPointer s
    foldMark := if s.seq.owed.isSome then both false else s.seq.foldMark
    settledHere := if s.seq.owed.isSome then both false else s.seq.settledHere }

theorem payOwed_eq (s : State) : payOwed s = reseat (paidSeq s) s := by
  cases ho : s.seq.owed with
  | none =>
    have hpointer : paidPointer s = s.seq.p := by simp only [paidPointer, ho]
    have hnone : s.seq.owed.isSome = false := by rw [ho]; rfl
    have hseq : paidSeq s = s.seq := by simp only [paidSeq, hpointer, hnone, Bool.false_eq_true, if_false]
    rw [hseq, reseat_same fun b => rfl]
    simp only [payOwed, ho]
    rfl
  | some d =>
    cases d <;> simp [payOwed, ho, paidSeq, paidPointer, movePointer, pointerAfter]

/-- The part in HAND_WAIT with the owed turn made good and a RESTORE begun, the vacuum off. -/
def paid (s : State) : Sequencer :=
  { paidSeq s with owed := none, kind := some .restore, outputs := { s.seq.outputs with vacuum := false } }

theorem handPress_eq (s : State) : handPress s =
    if s.seq.levels.home then enterPresent (reseat (paid s) s) else enterHome (reseat (paid s) s) := by
  have hpaid : (payOwed (vacuumOff s)).setSeq { (payOwed (vacuumOff s)).seq with owed := none, kind := some .restore } =
      reseat (paid s) s := by
    have hpointer : paidPointer (vacuumOff s) = paidPointer s := paidPointer_congr rfl rfl rfl
    rw [payOwed_eq]
    refine (setSeq_reseat (q := paidSeq (vacuumOff s)) (s := vacuumOff s)
      (r := { paidSeq (vacuumOff s) with owed := none, kind := some .restore }) rfl rfl rfl rfl).trans ?_
    refine (reseat_setSeq (s := s) (q := (vacuumOff s).seq) rfl rfl rfl rfl).trans (congrArg (reseat · s) ?_)
    simp only [paid, paidSeq, hpointer]
    rfl
  rw [← hpaid]
  have hlevels : (payOwed (vacuumOff s)).seq.levels = s.seq.levels := by rw [payOwed_eq]; rfl
  simp only [handPress, hlevels, State.setSeq]

theorem handPress_home (hs : s.seq.state = .handWait) (hhome : s.seq.levels.home = false) : handPress s = reseat
    { paid s with
      state := .home, motionLeft := motionLimit s .home
      outputs := { s.seq.outputs with vacuum := false, arm := towardSpine s } } s := by
  rw [handPress_eq, hhome, if_neg nofun, enterHome_away (by exact hhome)]
  exact enterMotion_reseat (q := paid s) .home _ (congrArg SeqState.showsSides hs) (fun h => nomatch hs.symm.trans h)

theorem handPress_present (hs : s.seq.state = .handWait) (hhome : s.seq.levels.home = true)
    (hcontact : (s.seq.levels.leftContact && s.seq.levels.rightContact) = false) : handPress s = reseat
    { paid s with
      state := .present, motionLeft := motionLimit s .present
      outputs := { presentDrive s s.seq.outputs with vacuum := false } } s := by
  rw [handPress_eq, hhome, if_pos rfl, enterPresent_away (by exact hcontact)]
  exact enterMotion_reseat (q := paid s) .present _ (congrArg SeqState.showsSides hs) (fun h => nomatch hs.symm.trans h)

/-! ### A press in FOLD_WAIT -/

variable {e : StackEntry} {rest : List StackEntry} {b : Side}

/-- The part in PANEL_HELD with the hold granted. -/
def presentedOf (s : State) : State :=
  s.setSeq { s.seq with state := .panelHeld, hold := true, holdGiven := true, waiting := false }

theorem foldPress_advance (hstack : s.seq.stack = e :: rest) (hphase : e.phase = .advanceNext) :
    foldPress s = advanceEntry s := by
  simp only [foldPress, hstack, hphase]

theorem foldPress_present (hs : s.seq.state = .foldWait) (hstack : s.seq.stack = e :: rest)
    (hphase : e.phase = .presentNext) (hpending : isPending s (.panel e.foldout e.panel) = true) :
    foldPress s = presentedOf s := by
  have hpress : foldPress s = grantHold (goto .panelHeld s) := by
    simp only [foldPress, hstack, hphase, topPending_eq hstack, hpending, if_true]
  have hgoto : goto .panelHeld s = s.setSeq { s.seq with state := .panelHeld } :=
    (goto_plain (hs ▸ nofun) (hs ▸ nofun) .panelHeld).trans (reseat_stack (congrArg SeqState.showsStack hs) rfl rfl rfl)
  rw [hpress, hgoto]
  rfl

/-- The part with its settled panel done. -/
def passedOver (e : StackEntry) (rest : List StackEntry) (s : State) : State :=
  s.setSeq { s.seq with stack := { e with phase := .advanceNext } :: rest }

theorem foldPress_passed (hstack : s.seq.stack = e :: rest) (hphase : e.phase = .presentNext)
    (hpending : isPending s (.panel e.foldout e.panel) = false) (hnone : nestedToOpen s e = none) :
    foldPress s = advanceEntry (passedOver e rest s) := by
  have hpress : foldPress s = advanceEntry (panelDone s) := by
    simp only [foldPress, hstack, hphase, topPending_eq hstack, hpending, hnone]
    rfl
  rw [hpress, panelDone_plain hstack hnone]
  rfl

theorem foldPress_nested {g : Nat} (hs : s.seq.state = .foldWait) (hstack : s.seq.stack = e :: rest)
    (hbank : s.seq.stackBank = some b) (hphase : e.phase = .presentNext)
    (hpending : isPending s (.panel e.foldout e.panel) = false) (hnested : nestedToOpen s e = some g) :
    foldPress s = restacked b (⟨g, 1, .presentNext⟩ :: { e with phase := .advanceNext } :: rest) s := by
  have hpress : foldPress s = panelDone s := by
    simp only [foldPress, hstack, hphase, topPending_eq hstack, hpending, hnested]
    rfl
  rw [hpress, panelDone_nested hstack (congrArg SeqState.showsStack hs) hbank hnested]

/-- The entry is one that a press advances: at ADVANCE_NEXT, or settled with no nested fold-out to open. -/
def Advances (s : State) (e : StackEntry) : Prop :=
  e.phase = .advanceNext ∨
    (e.phase = .presentNext ∧ isPending s (.panel e.foldout e.panel) = false ∧ nestedToOpen s e = none)

theorem foldPress_next (h : Advances s e) (hs : s.seq.state = .foldWait) (hstack : s.seq.stack = e :: rest)
    (hbank : s.seq.stackBank = some b) (hmore : e.panel < ((panelsOf s e.foldout).getD []).length) :
    foldPress s = restacked b (⟨e.foldout, e.panel + 1, .presentNext⟩ :: rest) s := by
  have hshows := congrArg SeqState.showsStack hs
  rcases h with hphase | ⟨hphase, hpending, hnone⟩
  · rw [foldPress_advance hstack hphase, advanceEntry_next hstack hshows hbank hmore]
  · rw [foldPress_passed hstack hphase hpending hnone]
    exact advanceEntry_next (s := passedOver e rest s) (e := { e with phase := .advanceNext }) rfl hshows hbank hmore

theorem foldPress_pop (h : Advances s e) (hs : s.seq.state = .foldWait) (hstack : s.seq.stack = e :: rest)
    (hbank : s.seq.stackBank = some b) (hlast : ((panelsOf s e.foldout).getD []).length ≤ e.panel) (hrest : rest ≠ []) :
    foldPress s = restacked b rest s := by
  have hshows := congrArg SeqState.showsStack hs
  rcases h with hphase | ⟨hphase, hpending, hnone⟩
  · rw [foldPress_advance hstack hphase, advanceEntry_pop hstack hshows hbank hlast hrest]
  · rw [foldPress_passed hstack hphase hpending hnone]
    exact advanceEntry_pop (s := passedOver e rest s) (e := { e with phase := .advanceNext }) rfl hshows hbank hlast hrest

theorem foldPress_empty (h : Advances s e) (hs : s.seq.state = .foldWait) (hstack : s.seq.stack = e :: rest)
    (hbank : s.seq.stackBank = some b) (hlast : ((panelsOf s e.foldout).getD []).length ≤ e.panel) (hnil : rest = [])
    (hcontact : (s.seq.levels.leftContact && s.seq.levels.rightContact) = false) : foldPress s = reseat { s.seq with
      state := .present, kind := some .restore, stack := [], stackBank := none
      motionLeft := motionLimit s .present, outputs := presentDrive s s.seq.outputs } (uncut b s) := by
  rcases h with hphase | ⟨hphase, hpending, hnone⟩
  · rw [foldPress_advance hstack hphase, advanceEntry_empty hstack hs hbank hnil hlast hcontact]
  · have hview (c : Side) : inView ((uncut b s).setSeq (passedOver e rest s).seq) c = inView (uncut b s) c := by
      have hshows := congrArg SeqState.showsStack hs
      rw [inView_stack (s := (uncut b s).setSeq (passedOver e rest s).seq) hshows, inView_stack (s := uncut b s) hshows,
        show (uncut b s).seq.stack = e :: rest from hstack]
      rfl
    rw [foldPress_passed hstack hphase hpending hnone]
    exact (advanceEntry_empty (s := passedOver e rest s) (e := { e with phase := .advanceNext }) rfl hs hbank hnil hlast
      hcontact).trans (reseat_of_inView hview)

/-! ### PANEL_HELD under no hold -/

theorem react_panel_unheld (hs : s.seq.state = .panelHeld) (hscan : s.col.volState = .scanning)
    (hhold : s.seq.hold = false) : react s = reactPanel s := by
  have hout : isHeld s = false := by simp [isHeld, hhold]
  simp only [react, offerBoth_out hout, reactSeq, hscan, if_true, hs]

theorem react_panel_left (hs : s.seq.state = .panelHeld) (hscan : s.col.volState = .scanning)
    (hhold : s.seq.hold = false) (hstack : s.seq.stack = e :: rest) (hrest : bothAtRest s = true)
    (hpause : s.seq.pendingPause = none) (hpending : isPending s (.panel e.foldout e.panel) = true) :
    react s = waitingAgain s := by
  rw [react_panel_unheld hs hscan hhold, reactPanel_leaves hrest hpause (.inr hhold),
    leavePanel_pending hs hstack hrest hpending]

theorem react_panel_paused {cause : PauseCause} (hs : s.seq.state = .panelHeld) (hscan : s.col.volState = .scanning)
    (hoffer : offerBoth s = s) (hrest : bothAtRest s = true) (hpause : s.seq.pendingPause = some cause) :
    react s = raise .paused [slot cause.num] { s with
      col := { s.col with volState := .paused }
      seq := { s.seq with pendingPause := none, hold := false, waiting := false } } := by
  have hreact : react s = reactPanel s := by simp only [react, hoffer, reactSeq, hscan, if_true, hs]
  rw [hreact, reactPanel_pause hs hscan hrest hpause]

end

end Sys2Proof.Machine
end

section
/-! PROOFS of the family `other`: the pedal and the held panel (02 R41, R43, R44, 05 R96, R98). -/
namespace Sys2Proof.Machine

/-! ### What a held panel offers its channel -/

theorem Side.forall_of_other {P : Side → Prop} (b : Side) (h : P b) (ho : P b.other) : ∀ c, P c := by
  intro c
  cases b <;> cases c <;> assumption

section
variable {s : State} {b : Side}

theorem inView_panel {e : StackEntry} {rest : List StackEntry} (hs : s.seq.state.showsStack = true)
    (hstack : s.seq.stack = e :: rest) (hbank : s.seq.stackBank = some b) :
    inView s b = some (.panel e.foldout e.panel) := by
  rw [inView_stack hs, hbank, if_pos rfl, hstack]
  rfl

/-- The bank beside the stack's is offered nothing. -/
theorem offeredAt_beside (hs : s.seq.state.showsStack = true) (hbank : s.seq.stackBank = some b)
    (hother : (s.chan b.other).state ≠ .idle ∨ (s.chan b.other).target = none) : ¬OfferedAt s b.other := by
  rintro ⟨_, ⟨hidle, htarget⟩ | ⟨x, hx, _⟩⟩
  · exact hother.elim (· hidle) (htarget ·)
  · rw [inView_beside_stack hs hbank (by cases b <;> nofun)] at hx
    exact nomatch hx

theorem not_offered_of_bank (hs : s.seq.state.showsStack = true) (hbank : s.seq.stackBank = some b)
    (hother : (s.chan b.other).state ≠ .idle ∨ (s.chan b.other).target = none) (hb : ¬OfferedAt s b) : ¬Offered s := by
  rintro ⟨_, _, c, hc⟩
  exact Side.forall_of_other (P := fun c => ¬OfferedAt s c) b hb (offeredAt_beside hs hbank hother) c hc

theorem not_offeredAt_working (hwork : (s.chan b).atRest = false) : ¬OfferedAt s b :=
  fun ⟨hrest, _⟩ => nomatch hwork.symm.trans hrest

/-- A channel that has nothing takes up nothing that is not PENDING. -/
theorem not_offeredAt_settled {x : Target} (hstill : (s.chan b).state = .done ∨ ((s.chan b).state = .idle ∧
    (s.chan b).target = none)) (hx : inView s b = some x) (hpending : isPending s x = false) : ¬OfferedAt s b := by
  rintro ⟨_, ⟨hidle, htarget⟩ | ⟨y, hy, hp⟩⟩
  · rcases hstill with hdone | ⟨_, hnone⟩
    · exact nomatch hidle.symm.trans hdone
    · exact htarget hnone
  · obtain rfl : x = y := Option.some.inj (hx.symm.trans hy)
    exact nomatch hpending.symm.trans hp

theorem target_of_still (hstill : (s.chan b).state = .done ∨ ((s.chan b).state = .idle ∧ (s.chan b).target = none)) :
    (s.chan b).state ≠ .idle ∨ (s.chan b).target = none :=
  hstill.elim (fun h => .inl (h ▸ nofun)) fun h => .inr h.2

/-- A channel that has nothing takes up the PENDING target in its view (05 R96). -/
theorem offer_still {x : Target} (hheld : isHeld s = true) (hopen : captureAllowed s = true)
    (hstill : (s.chan b).state = .done ∨ ((s.chan b).state = .idle ∧ (s.chan b).target = none))
    (hx : inView s b = some x) (hpending : isPending s x = true) : offer b s = takeUp b x s := by
  rcases hstill with hdone | ⟨hidle, hnone⟩
  · simp [offer, hheld, hopen, hdone, hx, hpending]
  · simp [offer, hheld, hopen, hidle, hnone, hx, hpending]

end

/-! ### PANEL_HELD while SCANNING -/

theorem not_offered_settled {s : State} {e : StackEntry} {rest : List StackEntry} {b : Side}
    (hs : s.seq.state = .panelHeld) (hstack : s.seq.stack = e :: rest) (hbank : s.seq.stackBank = some b)
    (hstill : ∀ c, (s.chan c).state = .done ∨ ((s.chan c).state = .idle ∧
    (s.chan c).target = none)) (hpending : isPending s (.panel e.foldout e.panel) = false) : ¬Offered s :=
  not_offered_of_bank (congrArg _ hs) hbank (target_of_still (hstill b.other))
    (not_offeredAt_settled (hstill b) (inView_panel (congrArg _ hs) hstack hbank) hpending)

section
variable {s : State} {e : StackEntry} {rest : List StackEntry} {b : Side} (hs : s.seq.state = .panelHeld)
  (hscan : s.col.volState = .scanning) (hstack : s.seq.stack = e :: rest) (hbank : s.seq.stackBank = some b)
include hs hscan hbank

theorem react_panel_working (hwork : (s.chan b).state = .firing ∨ (s.chan b).state = .awaiting)
    (hother : (s.chan b.other).state ≠ .idle ∨ (s.chan b.other).target = none) : react s = s := by
  have hatWork := Channel.atRest_working hwork
  rw [react_panelHeld hscan hs (not_offered_of_bank (congrArg _ hs) hbank hother (not_offeredAt_working hatWork)),
    reactPanel_working hbank hatWork]

include hstack

theorem react_panel_done (hstill : ∀ c, (s.chan c).state = .done ∨ ((s.chan c).state = .idle ∧
    (s.chan c).target = none)) (hpause : s.seq.pendingPause = none)
    (hopen : captureAllowed s = true ∨ s.seq.hold = false)
    (hpending : isPending s (.panel e.foldout e.panel) = false) : react s = leavePanel s := by
  rw [react_panelHeld hscan hs (not_offered_settled hs hstack hbank hstill hpending),
    reactPanel_leaves (bothAtRest_of_still hstill) hpause hopen]

/-- The PENDING panel offered under the hold is taken up. -/
theorem react_panel_takes (hstill : ∀ c, (s.chan c).state = .done ∨ ((s.chan c).state = .idle ∧
    (s.chan c).target = none)) (hopen : captureAllowed s = true) (hhold : s.seq.hold = true)
    (hpending : isPending s (.panel e.foldout e.panel) = true) (hport : (s.port b).state = .idle)
    (hshot : 1 ≤ (recipeOf s (.panel e.foldout e.panel)).shotCount) :
    react s = takenUp b (.panel e.foldout e.panel) s := by
  have hheld : isHeld s = true := by simp [isHeld, hhold, hs, hscan]
  have hview := inView_panel (congrArg SeqState.showsStack hs) hstack hbank
  have hother : ¬OfferedAt s b.other :=
    offeredAt_beside (congrArg SeqState.showsStack hs) hbank (target_of_still (hstill b.other))
  have htake : offer b s = takenUp b (.panel e.foldout e.panel) s :=
    (offer_still hheld hopen (hstill b) hview hpending).trans (takeUp_eq hshot hport)
  have hoffer : offerBoth s = takenUp b (.panel e.foldout e.panel) s := by
    cases b with
    | left =>
      have hstill' : ((takenUp .left (.panel e.foldout e.panel) s).chan .right).state ≠ .idle ∨
          ((takenUp .left (.panel e.foldout e.panel) s).chan .right).target = none := target_of_still (hstill .right)
      rw [offerBoth, htake]
      exact offer_unoffered (offeredAt_beside (s := takenUp .left _ s) (congrArg SeqState.showsStack hs) hbank hstill')
    | right => exact (congrArg (offer .right) (offer_unoffered hother)).trans htake
  have hreact : react s = reactPanel (takenUp b (.panel e.foldout e.panel) s) := by
    simp only [react, hoffer]
    exact (if_pos hscan).trans (by rw [show (takenUp b _ s).seq.state = .panelHeld from hs])
  rw [hreact]
  exact reactPanel_working hbank (by cases b <;> rfl)

end

/-- Settles O41. -/
theorem thePedalAndTheHeldPanel : Obligations.ThePedalAndTheHeldPanel := by
  intro s hstart
  simp only [arrived_eq, pressed_eq]
  have quiet {t : State} (h : pedalAtSequencer (pressed s) = t) (hr : react t = t) :
      exec (.pedalPress true) s = .next (idleBoundary t) := exec_pedal hstart ((congrArg react h).trans hr)
  have withdrawn {t u : State} (hs : s.seq.state = .panelHeld) (hscan : s.col.volState = .scanning)
      (h : withdrawHold (pressed s) = t) (hr : react t = u) : exec (.pedalPress true) s = .next (idleBoundary u) :=
    exec_pedal hstart ((congrArg react ((pedal_panelHeld (s := pressed s) hscan hs).trans h)).trans hr)
  have waits {b : Side} {es : List StackEntry} (hpause : s.seq.pendingPause = none) (hs : s.seq.state = .foldWait) :
      react (restacked b es (pressed s)) = restacked b es (pressed s) :=
    react_quiet (s := restacked b es (pressed s)) (fun h => nomatch hs.symm.trans h) (fun h => nomatch hs.symm.trans h)
      (.inl hpause)
  have advances {e : StackEntry} (h : e.phase = .advanceNext ∨
      ((e.phase = .presentNext ∧ isPending s (.panel e.foldout e.panel) = false) ∧
        ¬∃ g, (((panelsOf s e.foldout).getD [])[e.panel - 1]?).bind (·.nested) = some g ∧
          ∃ x ∈ panelsUnder s (coveredFoldouts s g), stateOf s x = some .pending)) : Advances (pressed s) e := by
    refine h.imp_right fun ⟨⟨hphase, hpending⟩, howed⟩ => ⟨hphase, hpending, ?_⟩
    exact (nestedToOpen_congr (s := s) (t := pressed s) rfl e).trans
      (nestedToOpen_eq_none.2 fun g hg => howed ⟨g, hg⟩)
  refine ⟨fun haway => ?_, fun hs => ?_, fun hs hscan => ⟨fun hhome => ?_, fun hhome hcontact => ?_⟩,
    fun e rest b hstack hbank hscan hpause hpending => ⟨fun hs hphase => ⟨?_, fun hdark => ?_⟩, fun hs hrest => ?_⟩,
    fun e rest b hstack hbank hscan hs => ⟨fun hwork harming hgating => ?_, fun hgating harmed hother =>
      ⟨fun hpause hpending => ?_, fun cause hpause => ?_⟩, fun cause hpause hrest => ?_⟩,
    fun e rest b hstack hbank hscan hpause hs => ⟨fun h => ⟨fun hmore => ?_, fun hlast hrest => ?_,
      fun hlast hnil hcontact => ?_⟩, fun g h howed hg => ?_⟩,
    fun e rest b hstack hbank hscan hs => ⟨fun hpause => ⟨fun hstill hhold hdark => ?_, fun hwork hother => ?_,
      fun hrest hhold hpending => ?_, fun hstill hopen hpending => ⟨fun hnone => ?_, fun g hg => ?_⟩,
      fun hstill hopen hhold hpending hport hshot => ?_⟩, fun cause hpause hstill hunoffered => ?_⟩⟩
  · exact quiet (pedal_away (s := pressed s) haway) (haway.elim (react_away (s := pressed s)) (react_still (s := pressed s)))
  · exact exec_pedal hstart (congrArg react (pedal_held (s := pressed s) hs))
  · have h := (pedal_handWait (s := pressed s) hscan hs).trans (handPress_home (s := pressed s) hs hhome)
    have hp : paidPointer (pressed s) = paidPointer s := paidPointer_congr rfl rfl rfl
    rw [paid, paidSeq, hp] at h
    have hexec := quiet h (react_away rfl)
    exact hexec
  · have h := (pedal_handWait (s := pressed s) hscan hs).trans (handPress_present (s := pressed s) hs hhome hcontact)
    have hp : paidPointer (pressed s) = paidPointer s := paidPointer_congr rfl rfl rfl
    rw [paid, paidSeq, hp] at h
    have hexec := quiet h (react_away rfl)
    exact hexec
  · have h := (pedal_foldWait (s := pressed s) hscan hs).trans
      (foldPress_present (s := pressed s) hs hstack hphase hpending)
    exact exec_pedal hstart (congrArg react h)
  · have h := react_panelHeld (s := presentedOf (pressed s)) hscan rfl fun hoffered =>
      nomatch hdark.symm.trans hoffered.2.1
    exact h.trans (reactPanel_dark (s := presentedOf (pressed s)) hpause hdark rfl)
  · have hleft := react_panel_left (s := unheld (pressed s)) hs hscan rfl hstack hrest hpause hpending
    exact withdrawn hs hscan (withdrawHold_working (s := pressed s) fun b =>
      Channel.atRest_ne ((bothAtRest_iff s).1 hrest b)) hleft
  · have hnotHeader : (s.chan b).state ≠ .arming ∧ (s.chan b).state ≠ .gating := by
      rcases hwork with h | h <;> simp [h]
    have hstands := (react_panel_unheld (s := unheld (pressed s)) hs hscan rfl).trans
      (reactPanel_working (b := b) hbank (Channel.atRest_working hwork))
    exact withdrawn hs hscan (withdrawHold_working (s := pressed s)
      (Side.forall_of_other b hnotHeader ⟨harming, hgating⟩)) hstands
  · have hback := withdrawHold_gating (s := pressed s) (p := s.port b) (c := s.chan b) rfl rfl hgating harmed
      (Channel.atRest_ne hother)
    have hrest : bothAtRest (takenBack b (s.port b) (s.chan b) (unheld (pressed s))) = true :=
      (bothAtRest_takenBack b _ _ _).trans hother
    have hleft := react_panel_left (s := takenBack b (s.port b) (s.chan b) (unheld (pressed s))) hs hscan rfl hstack hrest
      hpause hpending
    exact withdrawn hs hscan hback hleft
  · have hback := withdrawHold_gating (s := pressed s) (p := s.port b) (c := s.chan b) rfl rfl hgating harmed
      (Channel.atRest_ne hother)
    have hrest : bothAtRest (takenBack b (s.port b) (s.chan b) (unheld (pressed s))) = true :=
      (bothAtRest_takenBack b _ _ _).trans hother
    have hpaused := react_panel_paused (s := takenBack b (s.port b) (s.chan b) (unheld (pressed s))) hs hscan
      (offerBoth_unoffered fun h => nomatch h.1) hrest hpause
    exact withdrawn hs hscan hback hpaused
  · have hpaused := react_panel_paused (s := unheld (pressed s)) hs hscan
      (offerBoth_unoffered fun h => nomatch h.1) hrest hpause
    exact withdrawn hs hscan (withdrawHold_working (s := pressed s) fun b =>
      Channel.atRest_ne ((bothAtRest_iff s).1 hrest b)) hpaused
  · have hpress := foldPress_next (s := pressed s) (advances h) hs hstack hbank hmore
    exact quiet ((pedal_foldWait (s := pressed s) hscan hs).trans hpress) (waits hpause hs)
  · have hpress := foldPress_pop (s := pressed s) (advances h) hs hstack hbank hlast hrest
    exact quiet ((pedal_foldWait (s := pressed s) hscan hs).trans hpress) (waits hpause hs)
  · have hpress := foldPress_empty (s := pressed s) (advances h) hs hstack hbank hlast hnil hcontact
    exact quiet ((pedal_foldWait (s := pressed s) hscan hs).trans hpress) (react_away rfl)
  · obtain ⟨hphase, hpending⟩ := h
    obtain ⟨g', hg', howes⟩ := howed
    obtain rfl : g = g' := Option.some.inj (hg.symm.trans hg')
    have hnested := (nestedToOpen_congr (s := s) (t := pressed s) rfl e).trans (nestedToOpen_eq_some.2 ⟨hg, howes⟩)
    have hpress := foldPress_nested (s := pressed s) hs hstack hbank hphase hpending hnested
    exact quiet ((pedal_foldWait (s := pressed s) hscan hs).trans hpress) (waits hpause hs)
  · have h := react_panelHeld (s := s) hscan hs fun hoffered => nomatch hdark.symm.trans hoffered.2.1
    exact h.trans (reactPanel_dark hpause hdark hhold)
  · exact react_panel_working hs hscan hbank hwork hother
  · exact react_panel_left hs hscan hhold hstack hrest hpause hpending
  · have hdone := react_panel_done hs hscan hstack hbank hstill hpause hopen hpending
    exact hdone.trans (leavePanel_done hs hstack (bothAtRest_of_still hstill) hpending (nestedToOpen_eq_none.2 hnone))
  · have hdone := react_panel_done hs hscan hstack hbank hstill hpause hopen hpending
    exact hdone.trans (leavePanel_nested hs hstack hbank (bothAtRest_of_still hstill) hpending (nestedToOpen_eq_some.2 hg))
  · exact react_panel_takes hs hscan hstack hbank hstill hopen hhold hpending hport hshot
  · refine react_panel_paused hs hscan (offerBoth_unoffered ?_) (bothAtRest_of_still hstill) hpause
    rcases hunoffered with hdark | hhold | hpending
    · exact fun hoffered => nomatch hdark.symm.trans hoffered.2.1
    · exact fun hoffered => nomatch hhold.symm.trans hoffered.1
    · exact not_offered_settled hs hstack hbank hstill hpending

end Sys2Proof.Machine
end

section
/-! PROOFS of the family `other`: RESUME in FAULT (02 R50). -/
namespace Sys2Proof.Machine

/-! ### Settling where nothing is held (07 R138) -/

/-- The sequencer gives no settled-here mark: no hold has been granted, or nothing is held. -/
def Sequencer.Unmarked (q : Sequencer) : Prop := (q.holdGiven && (q.state == .held || q.state == .panelHeld)) = false

theorem markSettledHere_unmarked {s : State} (h : s.seq.Unmarked) (x : Target) : markSettledHere x s = s :=
  if_neg (Bool.eq_false_iff.1 h)

theorem settle_unmarked {s : State} (h : s.seq.Unmarked) (x : Target) (a : TState) : settle x a s =
    if isPending s x then dropRetake x (changeState x .pending a s) else s := by
  have hseq : (dropRetake x (changeState x .pending a s)).seq = s.seq := by rw [settled_rest]
  rw [settle, markSettledHere_unmarked (by rw [hseq]; exact h)]

theorem settle_rest {s : State} (h : s.seq.Unmarked) (x : Target) (a : TState) : settle x a s =
    { s with col := (settle x a s).col, tally := (settle x a s).tally } := by
  rw [settle_unmarked h]
  split
  · rw [settled_rest]
  · rfl

theorem changeState_setSeq (x : Target) (a b : TState) (q : Sequencer) (s : State) :
    changeState x a b (s.setSeq q) = (changeState x a b s).setSeq q := by
  cases x with
  | side => rfl
  | panel f n =>
    simp only [changeState, moveCount, modifyFields]
    split <;> rfl

theorem settle_setSeq {s : State} {q : Sequencer} (h : s.seq.Unmarked) (hq : q.Unmarked) (x : Target) (a : TState) :
    settle x a (s.setSeq q) = (settle x a s).setSeq q := by
  have hdrop (u : State) : dropRetake x (u.setSeq q) = (dropRetake x u).setSeq q := by cases x <;> rfl
  rw [settle_unmarked h, settle_unmarked (s := s.setSeq q) hq, changeState_setSeq, hdrop,
    apply_ite (fun u : State => u.setSeq q)]
  rfl

theorem settleAll_cons (x : Target) (xs : List Target) (a : TState) (s : State) :
    settleAll (x :: xs) a s = settleAll xs a (settle x a s) := rfl

theorem settleAll_rest (xs : List Target) (a : TState) {s : State} (h : s.seq.Unmarked) : settleAll xs a s =
    { s with col := (settleAll xs a s).col, tally := (settleAll xs a s).tally } := by
  induction xs generalizing s with
  | nil => rfl
  | cons x xs ih =>
    have hrest := settle_rest h x a
    rw [settleAll_cons, hrest]
    exact ih (s := { s with col := (settle x a s).col, tally := (settle x a s).tally }) h

theorem settleAll_setSeq (xs : List Target) (a : TState) {s : State} {q : Sequencer} (h : s.seq.Unmarked)
    (hq : q.Unmarked) : settleAll xs a (s.setSeq q) = (settleAll xs a s).setSeq q := by
  induction xs generalizing s with
  | nil => rfl
  | cons x xs ih =>
    have hseq : (settle x a s).seq = s.seq := by rw [settle_rest h]
    rw [settleAll_cons, settleAll_cons, settle_setSeq h hq, ih (by rw [hseq]; exact h)]

theorem present_changeState (x : Target) (a b : TState) (s : State) :
    present (changeState x a b s) = present s ∧ leafCount (changeState x a b s) = leafCount s := by
  have hcol : (changeState x a b s).col = (modifyFields x ({ · with state := b }) s).col := by cases x <;> rfl
  obtain ⟨_, hvolume, _⟩ := modifyFields_shape x ({ · with state := b }) s
  have hcount : leafCount (changeState x a b s) = leafCount s := leafCount_congr (by rw [hcol, hvolume])
  refine ⟨funext fun i => ?_, hcount⟩
  rw [present, hcount, leafAt_congr hcol, absent_modifyFields, present]

theorem present_settle {s : State} (h : s.seq.Unmarked) (x : Target) (a : TState) :
    present (settle x a s) = present s ∧ leafCount (settle x a s) = leafCount s := by
  rw [settle_unmarked h]
  split
  · have hcol : (dropRetake x (changeState x .pending a s)).col = (changeState x .pending a s).col := by
      rw [dropRetake_rest]
    obtain ⟨hpresent, hcount⟩ := present_changeState x .pending a s
    exact ⟨(present_of (congrArg _ hcol) (congrArg _ hcol)).trans hpresent,
      (leafCount_congr (congrArg _ hcol)).trans hcount⟩
  · exact ⟨rfl, rfl⟩

theorem present_settleAll (xs : List Target) (a : TState) {s : State} (h : s.seq.Unmarked) :
    present (settleAll xs a s) = present s ∧ leafCount (settleAll xs a s) = leafCount s := by
  induction xs generalizing s with
  | nil => exact ⟨rfl, rfl⟩
  | cons x xs ih =>
    have hseq : (settle x a s).seq = s.seq := by rw [settle_rest h]
    obtain ⟨hpresent, hcount⟩ := present_settle h x a
    obtain ⟨hpresent', hcount'⟩ := ih (s := settle x a s) (by rw [hseq]; exact h)
    exact ⟨hpresent'.trans hpresent, hcount'.trans hcount⟩

/-- HOME entered once p has moved. -/
theorem enterHome_moved {q : Sequencer} {s : State} {p : Nat} (hq : q.state.showsSides = true) (hheld : q.state ≠ .held)
    (hstate : q.state = s.seq.state) (hp : q.p = s.seq.p) (hstack : q.stack = s.seq.stack)
    (hbank : q.stackBank = s.seq.stackBank) (hhome : q.levels.home = false) :
    enterHome (movePointer p (s.setSeq q)) = reseat { q with
      state := .home, p := p, foldMark := both false, settledHere := both false, motionLeft := motionLimit s .home
      outputs := { q.outputs with arm := towardSpine (s.setSeq q) } } s := by
  have hmoved : movePointer p (s.setSeq q) =
      reseat { q with p := p, foldMark := both false, settledHere := both false } s :=
    reseat_setSeq hstate hp hstack hbank
  rw [hmoved, enterHome_away (by exact hhome)]
  exact enterMotion_reseat .home _ hq hheld

/-! ### RESUME from FAULT -/

/-- The part SCANNING again, with neither fault nor disturbance. -/
def scanningAgain (s : State) : State :=
  { s with col := { s.col with volState := .scanning }, seq := { s.seq with fault := none, disturbed := false } }

theorem resumeVolume_fault {s : State} {r : FaultRecord} (hfault : s.seq.fault = some r) :
    resumeVolume s = react (carryOut r (scanningAgain s)) := by
  simp only [resumeVolume, hfault]
  rfl

theorem resumeRule_ok {s : State} (hvol : s.col.volState = .paused) (hmanual : s.seq.manual = none)
    (hfault : s.seq.state = .fault → (s.seq.fault.map (·.resolution)).getD .none ≠ .none) :
    resumeRule [] s = ⟨.ok, [], resumeVolume s⟩ := by
  rw [resumeRule, if_neg (by simp [hvol]), if_neg (by simp), if_neg (by simp [hmanual]),
    if_neg fun h => hfault h.1 h.2]

section
variable {s : State} {r : FaultRecord} (hs : s.seq.state = .fault)
include hs

theorem fault_showsSides : s.seq.state.showsSides = true := hs ▸ rfl

theorem fault_unheld : s.seq.state ≠ .held := hs ▸ nofun

theorem carryOut_handWait (h : (r.resolution = .hand ∧ ¬(r.motion = .platenUp ∧ s.seq.kind = some .foldRaise)) ∨
    r.resolution = .giveBack) : carryOut r s = raise .handWait
      [slot (if r.owed.isSome then r.turned.getD s.seq.p else s.seq.p), slot (dirOptNum r.owed)] (s.setSeq { s.seq with
        state := .handWait, owed := r.owed, kind := none, turn := none, motionLeft := 0 }) := by
  have henter := enterHandWait_from (leaf := waitLeaf r s) (owed := r.owed) (fault_showsSides hs) (fault_unheld hs)
  rcases h with ⟨hhand, hother⟩ | hback
  · simp only [carryOut, hhand, carryHand, if_neg hother]
    exact henter
  · simp only [carryOut, hback]
    exact henter

theorem carryOut_foldWait (hhand : r.resolution = .hand) (hmotion : r.motion = .platenUp)
    (hkind : s.seq.kind = some .foldRaise) : carryOut r s =
      reseat { s.seq with state := .foldWait, kind := none, turn := none, motionLeft := 0 } s := by
  simp only [carryOut, hhand, carryHand, hmotion, hkind, and_self, if_true]
  exact enterFoldWait_from (fault_showsSides hs) (fault_unheld hs)

/-- PICK tried afresh after a mispick. -/
def unretried (s : State) : State := s.setSeq { s.seq with retries := 0 }

theorem carryOut_mispick (hretry : r.resolution = .retry) (hcause : r.cause = .mispick)
    (hfar : s.seq.levels.get (farInput (sourceSide s)) = false) (hvac : s.seq.levels.vacuumGood = false) :
    carryOut r s = s.setSeq { s.seq with
      state := .pick, retries := 0, motionLeft := motionLimit s .pick
      outputs := { s.seq.outputs with arm := armToward (sourceSide s) } } := by
  simp only [carryOut, hretry, carryRetry, hcause]
  exact enterPick_toward (s := unretried s) (fault_showsSides hs) (fault_unheld hs) hfar hvac

/-- The part with the kind of a RESTORE. -/
def restoring (s : State) : State := s.setSeq { s.seq with kind := some .restore }

theorem carryOut_platenDown (hretry : r.resolution = .retry)
    (hcause : r.cause = .slipped ∨ (r.cause = .timeout ∧ r.motion = .platenDown))
    (hdown : s.seq.levels.platenDown = false) : carryOut r s = s.setSeq { s.seq with
      state := .platenDown, kind := if r.cause = .slipped then some .restore else s.seq.kind
      motionLeft := motionLimit s .platenDown, outputs := { s.seq.outputs with platen := .down } } := by
  rcases hcause with hslipped | ⟨htimeout, hmotion⟩
  · simp only [carryOut, hretry, carryRetry, hslipped, if_true]
    exact enterPlatenDown_to (s := restoring s) (fault_showsSides hs) (fault_unheld hs) hdown
  · simp only [carryOut, hretry, carryRetry, htimeout, hmotion, reenter, reduceCtorEq, if_false]
    exact enterPlatenDown_to (fault_showsSides hs) (fault_unheld hs) hdown

omit hs in
theorem carryOut_reenter (hretry : r.resolution = .retry) (hcause : r.cause = .timeout) :
    carryOut r s = reenter r.motion s := by
  simp only [carryOut, hretry, carryRetry, hcause]

theorem enterPlatenUp_to {k : SeqKind} (hup : s.seq.levels.platenUp = false) : enterPlatenUp k s = s.setSeq { s.seq with
      state := .platenUp, kind := some k, retries := if k.isTurn then 0 else s.seq.retries
      motionLeft := motionLimit s .platenUp, outputs := raiseDrive k s.seq.outputs } :=
  (enterPlatenUp_below hup).trans
    (enterMotion_showsSides (s := raising k s) .platenUp _ (fault_showsSides hs) (fault_unheld hs))

theorem retryCarry_to (hfar : s.seq.levels.get (farInput (destSide s)) = false) : retryCarry s = s.setSeq { s.seq with
      state := .carry, motionLeft := motionLimit s .carry
      outputs := { s.seq.outputs with puff := false, arm := armToward (destSide s) } } := by
  have hdrive : driveCarry s = s.setSeq { s.seq with
      state := .carry, motionLeft := motionLimit s .carry
      outputs := { s.seq.outputs with puff := false, arm := armToward (destSide s) } } :=
    enterMotion_showsSides .carry _ (fault_showsSides hs) (fault_unheld hs)
  rw [retryCarry, hdrive]
  exact if_neg (Bool.eq_false_iff.1 hfar)

/-- The sequencer as ADVANCE leaves it before p moves. -/
def advancing (s : State) : Sequencer :=
  { s.seq with kind := some .restore, outputs := { s.seq.outputs with vacuum := false } }

omit hs in
theorem carryOut_advance_eq {a u : Nat} (hadvance : r.resolution = .advance) (hturned : r.turned = some a)
    (hbeyond : leafBeyond s r = some u) : carryOut r s = enterHome (movePointer
      (if r.owed = some .forward then presentAfter (settleAll (hiddenFaces a u) .skipped (vacuumOff s)) u else u)
      (restoring (settleAll (hiddenFaces a u) .skipped (vacuumOff s)))) := by
  simp only [carryOut, hadvance, carryAdvance, hturned, hbeyond]
  rfl

/-- ADVANCE: the two hidden faces SKIPPED, p past both leaves and HOME entered. -/
theorem carryOut_advance {a u p : Nat} {d : Dir} (hadvance : r.resolution = .advance) (hturned : r.turned = some a)
    (howed : r.owed = some d) (hbeyond : leafBeyond s r = some u) (hp : (if d = .forward then presentAfter s u else u) = p)
    (hhome : s.seq.levels.home = false) : carryOut r s = reseat { s.seq with
      state := .home, kind := some .restore, p := p, foldMark := both false, settledHere := both false
      motionLeft := motionLimit s .home
      outputs := { s.seq.outputs with vacuum := false, arm := towardSpine s } }
    (settleAll (hiddenFaces a u) .skipped s) := by
  have hunmarked : s.seq.Unmarked := by simp [Sequencer.Unmarked, hs]
  have hvacuum : settleAll (hiddenFaces a u) .skipped (vacuumOff s) = _ :=
    settleAll_setSeq (hiddenFaces a u) .skipped (s := s) (q := (vacuumOff s).seq) hunmarked hunmarked
  have hrest := settleAll_rest (hiddenFaces a u) .skipped hunmarked
  obtain ⟨hpresent, hcount⟩ := present_settleAll (hiddenFaces a u) .skipped hunmarked
  rw [carryOut_advance_eq hadvance hturned hbeyond, hvacuum]
  generalize settleAll (hiddenFaces a u) .skipped s = t at hrest hpresent hcount ⊢
  have hseq : t.seq = s.seq := by rw [hrest]
  have hsettings : t.settings = s.settings := by rw [hrest]
  have hp' : (if r.owed = some .forward then presentAfter (t.setSeq (vacuumOff s).seq) u else u) = p := by
    rw [howed, presentAfter_of (s := s) (t := t.setSeq (vacuumOff s).seq) hpresent hcount, ← hp]
    simp
  have hlimit : motionLimit t .home = motionLimit s .home := by rw [motionLimit, motionLimit, hsettings]
  rw [hp', ← hlimit]
  exact enterHome_moved (q := advancing s) (s := t) (congrArg SeqState.showsSides hs)
    (fun h => nomatch hs.symm.trans h) (by rw [hseq]; rfl) (by rw [hseq]; rfl) (by rw [hseq]; rfl) (by rw [hseq]; rfl) hhome

end

theorem present_scanningAgain (s : State) :
    present (scanningAgain s) = present s ∧ leafCount (scanningAgain s) = leafCount s :=
  ⟨present_of (s := s) (t := scanningAgain s) rfl rfl, rfl⟩

theorem leafBeyond_of {s t : State} (hpresent : present t = present s) (hcount : leafCount t = leafCount s)
    (r : FaultRecord) : leafBeyond t r = leafBeyond s r := by
  simp only [leafBeyond, presentAfter_of hpresent hcount, presentBefore_of hpresent, hcount]

/-- Settles O19. -/
theorem resumeCarriesOutTheResolution : Obligations.ResumeCarriesOutTheResolution := by
  intro tag s r htakes hvol hmanual hstate hfault hpause
  have accepted {t : State} (hresolved : r.resolution ≠ .none) (h : react (carryOut r (scanningAgain s)) = t) :
      exec (.resume tag []) s = .next (giveReply tag 0x22 ⟨.ok, [], t⟩) := by
    refine exec_answers htakes rfl ((resumeRule_ok hvol hmanual fun _ => ?_).trans ?_)
    · simpa [hfault] using hresolved
    · rw [resumeVolume_fault hfault, h]
  have moving {t : State} (hresolved : r.resolution ≠ .none) (h : carryOut r (scanningAgain s) = t)
      (haway : t.seq.state.isRest = false) : exec (.resume tag []) s = .next (giveReply tag 0x22 ⟨.ok, [], t⟩) :=
    accepted hresolved ((congrArg react h).trans (react_away haway))
  have again {t : State} (hretry : r.resolution = .retry) (hcause : r.cause = .timeout)
      (h : reenter r.motion (scanningAgain s) = t) (haway : t.seq.state.isRest = false) :
      exec (.resume tag []) s = .next (giveReply tag 0x22 ⟨.ok, [], t⟩) :=
    moving (hretry ▸ nofun) ((carryOut_reenter hretry hcause).trans h) haway
  refine ⟨fun h => ?_, fun hhand hmotion hkind => ?_, fun hretry hcause hfar hvac => ?_, fun hretry hcause hdown => ?_,
    fun hretry hcause => ⟨fun hmotion hcontact => ?_, fun k hmotion hkind hup => ?_, fun hmotion hfar => ?_,
      fun hmotion hvac => ?_, fun hmotion hhome => ?_⟩, fun a u d hadvance hturned howed hbeyond hhome => ?_⟩
  · have hout := carryOut_handWait (s := scanningAgain s) hstate h
    have hresolved : r.resolution ≠ .none := by rcases h with ⟨h, _⟩ | h <;> simp [h]
    exact accepted hresolved ((congrArg react hout).trans (react_quiet (by exact nofun) (by exact nofun) (.inl hpause)))
  · have hout := carryOut_foldWait (s := scanningAgain s) hstate hhand hmotion hkind
    exact accepted (hhand ▸ nofun)
      ((congrArg react hout).trans (react_quiet (by exact nofun) (by exact nofun) (.inl hpause)))
  · exact moving (hretry ▸ nofun) (carryOut_mispick (s := scanningAgain s) hstate hretry hcause hfar hvac) rfl
  · exact moving (hretry ▸ nofun) (carryOut_platenDown (s := scanningAgain s) hstate hretry hcause hdown) rfl
  · refine again hretry hcause (Eq.trans (by rw [hmotion]) ?_) ?_
    · exact enterPresent_to (s := scanningAgain s) (fault_showsSides hstate) (fault_unheld hstate) hcontact
    · rfl
  · have henter := enterPlatenUp_to (k := k) (s := scanningAgain s) hstate hup
    rw [← hkind] at henter
    have hagain : reenter r.motion (scanningAgain s) = enterPlatenUp k (scanningAgain s) := by
      rw [hmotion, reenter, show (scanningAgain s).seq.kind = some k from hkind]
      rfl
    have h := again hretry hcause (hagain.trans henter) rfl
    cases k <;> exact h
  · refine again hretry hcause (Eq.trans (by rw [hmotion]) ?_) ?_
    · exact retryCarry_to (s := scanningAgain s) hstate hfar
    · rfl
  · refine again hretry hcause (Eq.trans (by rw [hmotion]) ?_) ?_
    · exact enterLay_good (s := scanningAgain s) (fault_showsSides hstate) (fault_unheld hstate) hvac
    · rfl
  · refine again hretry hcause (Eq.trans (by rw [hmotion]) ?_) ?_
    · exact enterHome_to (s := scanningAgain s) (fault_showsSides hstate) (fault_unheld hstate) hhome
    · rfl
  · obtain ⟨hpresent, hcount⟩ := present_scanningAgain s
    have hp : (if d = .forward then presentAfter (scanningAgain s) u else u) =
        if d = .forward then presentAfter s u else u := by rw [presentAfter_of hpresent hcount]
    have hout := carryOut_advance (s := scanningAgain s) hstate hadvance hturned howed
      ((leafBeyond_of hpresent hcount r).trans hbeyond) hp hhome
    exact moving (hadvance ▸ nofun) hout rfl

end Sys2Proof.Machine
end

section
/-! PROOFS of the family `other`: a turn begun at a held opening, the step mode and the resolution of a fault
(02 R37 to R40, R49, R50). -/
namespace Sys2Proof.Machine

/-! ### Leaving a held opening for a turn -/

/-- With both channels at rest a motion entered from HELD ends both visits and the hold. -/
theorem enterMotion_held {s : State} (m : Motion) (drive : Outputs → Outputs) (hheld : s.seq.state = .held)
    (hrest : bothAtRest s = true) : enterMotion m drive s = { s with
      chans := both .afterReset
      seq := { s.seq with
        state := m.state, hold := false, holdGiven := false, waiting := false, motionLeft := motionLimit s m
        outputs := drive s.seq.outputs } } := by
  rw [enterMotion, goto_leaves (.inl hheld) (fun h => m.state_ne_held (h.symm.trans hheld)) hrest,
    reseat_showsSides
      (q := { s.seq with state := m.state, hold := false, holdGiven := false, waiting := false })
      (s := { s with chans := both .afterReset }) (congrArg SeqState.showsSides hheld) m.state_showsSides rfl]
  rfl

/-- The turned leaf named, the platen not yet raised. -/
def withTurn (d : Dir) (leaf : Nat) (s : State) : State := s.setSeq { s.seq with turn := some ⟨d, leaf⟩ }

/-- The kind of a turn of a leaf: by hand for a HAND_TURN leaf and in HAND mode (02 R40). -/
def turnKind (s : State) (leaf : Nat) : SeqKind :=
  if (leafAt s leaf).handTurn = true ∨ s.seq.mode = .hand then .handRaise else .machineTurn

theorem turnKind_isTurn (s : State) (leaf : Nat) : (turnKind s leaf).isTurn = true := by
  rw [turnKind]
  split <;> rfl

/-- The sequencer raising the platen off a held opening for a turn. -/
def turningSeq (d : Dir) (leaf : Nat) (s : State) : Sequencer :=
  { s.seq with
    state := .platenUp, retries := 0, kind := some (turnKind s leaf), turn := some ⟨d, leaf⟩
    hold := false, holdGiven := false, waiting := false, motionLeft := motionLimit s .platenUp
    outputs := { s.seq.outputs with platen := .up, lifts := both .lower } }

theorem beginTurn_some {s : State} {d : Dir} {leaf : Nat} (h : turnedLeaf s d = some leaf) :
    beginTurn d s = enterPlatenUp (turnKind s leaf) (withTurn d leaf s) := by
  simp only [beginTurn, h, turnKind, Bool.or_eq_true, beq_iff_eq]
  rfl

theorem beginTurn_held {s : State} {d : Dir} {leaf : Nat} (h : turnedLeaf s d = some leaf)
    (hheld : s.seq.state = .held) (hrest : bothAtRest s = true) (hup : s.seq.levels.platenUp = false) :
    beginTurn d s = { s with chans := both .afterReset, seq := turningSeq d leaf s } := by
  have hturn := turnKind_isTurn s leaf
  rw [beginTurn_some h, enterPlatenUp_below (s := withTurn d leaf s) hup,
    enterMotion_held (s := raising (turnKind s leaf) (withTurn d leaf s)) .platenUp _ hheld hrest]
  simp only [raising, raiseDrive, hturn, if_true]
  rfl

/-! ### What lies ahead (02 R38) -/

/-- A PENDING side ahead in a direction. -/
def SideAhead (s : State) (d : Dir) : Prop := ∃ leaf f, stateOf s (.side leaf f) = some .pending ∧
  match d with
  | .forward => s.seq.p < openingOf s leaf f
  | .backward => openingOf s leaf f < s.seq.p

theorem mem_allSides_of_pending {s : State} {leaf : Nat} {f : Face} (h : stateOf s (.side leaf f) = some .pending) :
    .side leaf f ∈ allSides s := by
  refine mem_allSides.2 ⟨leaf, f, rfl, ?_⟩
  by_contra hout
  simp [stateOf, fieldsOf, List.getElem?_eq_none (Nat.le_of_not_lt hout)] at h

theorem pendingAhead_iff {s : State} {d : Dir} : pendingAhead s d = true ↔ SideAhead s d := by
  rw [pendingAhead, List.any_eq_true]
  constructor
  · rintro ⟨x, _, hx⟩
    cases x with
    | panel g n => exact nomatch hx
    | side leaf f => cases d <;> simp only [isPending, Bool.and_eq_true, beq_iff_eq, decide_eq_true_eq] at hx <;>
        exact ⟨leaf, f, hx⟩
  · rintro ⟨leaf, f, hpending, hp⟩
    refine ⟨.side leaf f, mem_allSides_of_pending hpending, ?_⟩
    cases d <;> simpa [isPending, hpending] using hp

theorem openingOf_of {s t : State} (hl : t.col.leaves = s.col.leaves) (hv : t.col.volume = s.col.volume) (leaf : Nat)
    (f : Face) : openingOf t leaf f = openingOf s leaf f := by
  cases f with
  | recto => rfl
  | verso => exact presentAfter_of (present_of hl hv) (leafCount_congr hv) leaf

theorem stateOf_side_of {s t : State} (hl : t.col.leaves = s.col.leaves) (leaf : Nat) (f : Face) :
    stateOf t (.side leaf f) = stateOf s (.side leaf f) := by
  rw [stateOf, fieldsOf, hl, stateOf, fieldsOf]

theorem sideAhead_of {s t : State} (hl : t.col.leaves = s.col.leaves) (hv : t.col.volume = s.col.volume)
    (hp : t.seq.p = s.seq.p) (d : Dir) : SideAhead t d ↔ SideAhead s d := by
  simp only [SideAhead, stateOf_side_of hl, openingOf_of hl hv, hp]

/-! ### The decision of AUTO and HAND (02 R38) -/

theorem decideTurn_ahead {s : State} (h : SideAhead s s.seq.dir) : decideTurn s = beginTurn s.seq.dir s := by
  rw [decideTurn, if_pos (pendingAhead_iff.2 h)]

/-- The direction turned round. -/
def turnedRound (s : State) : State := s.setSeq { s.seq with dir := s.seq.dir.opposite }

theorem decideTurn_behind {s : State} (hnot : ¬SideAhead s s.seq.dir) (h : SideAhead s s.seq.dir.opposite) :
    decideTurn s = beginTurn s.seq.dir.opposite (turnedRound s) := by
  rw [decideTurn, if_neg (mt pendingAhead_iff.1 hnot), if_pos (pendingAhead_iff.2 h)]
  rfl

/-- The volume PAUSED at its end, VOLUME_END and PAUSED raised. -/
def volumeEnded (s : State) : State :=
  raise .paused [3] (raise .volumeEnd [slot s.seq.p] { s with
    col := { s.col with volState := .paused }
    seq := { s.seq with pendingPause := none, hold := false, waiting := false } })

theorem decideTurn_over {s : State} (hscan : s.col.volState = .scanning) (hrest : bothAtRest s = true)
    (hnot : ¬SideAhead s s.seq.dir) (hback : ¬SideAhead s s.seq.dir.opposite) : decideTurn s = volumeEnded s := by
  rw [decideTurn, if_neg (mt pendingAhead_iff.1 hnot), if_neg (mt pendingAhead_iff.1 hback)]
  refine (pauseVolume_rest (s := raise .volumeEnd [slot s.seq.p] s) hscan hrest).trans
    (congrArg (raise .paused [3]) ?_)
  exact Eq.symm (raise_beside (chans := s.chans) (by simp [hscan]))

/-! ### The opening that waits -/

/-- The sequencer waits in HELD on a settled opening. -/
def WaitsHeld (s : State) : Prop := s.seq.state = .held ∧ s.seq.hold = true ∧ bothAtRest s = true ∧
  noneInViewPending s = true ∧ s.seq.waiting = true

theorem waitsForStep_iff (s : State) : waitsForStep s = true ↔ s.col.volState = .scanning ∧ WaitsHeld s := by
  rw [waitsForStep, Bool.and_eq_true, isSettled_iff, WaitsHeld]
  constructor
  · rintro ⟨⟨hheld, hscan, hhold, hrest, hview⟩, hwaiting⟩
    exact ⟨hscan, hheld, hhold, hrest, hview, hwaiting⟩
  · rintro ⟨hscan, hheld, hhold, hrest, hview, hwaiting⟩
    exact ⟨⟨hheld, hscan, hhold, hrest, hview⟩, hwaiting⟩

theorem waitsForStep_quiet {s : State} (h : s.col.volState = .paused ∨ s.seq.state.isRest = false) :
    waitsForStep s = false := by
  refine Bool.eq_false_iff.2 fun hwaits => ?_
  obtain ⟨hscan, hheld, _⟩ := (waitsForStep_iff s).1 hwaits
  simp [hscan, hheld, SeqState.isRest] at h

theorem react_paused_or_away {s : State} (h : s.col.volState = .paused ∨ s.seq.state.isRest = false) : react s = s :=
  h.elim (fun hpaused => react_still (hpaused ▸ nofun)) react_away

theorem noneInViewPending_setSeq {s : State} {q : Sequencer} (hs : q.state = s.seq.state) (hp : q.p = s.seq.p)
    (hk : q.stack = s.seq.stack) (hb : q.stackBank = s.seq.stackBank) :
    noneInViewPending (s.setSeq q) = noneInViewPending s :=
  noneInViewPending_congr (s := s) (t := s.setSeq q) rfl
    fun b => inView_congr (s := s) (t := s.setSeq q) rfl hs hp hk hb b

/-- A channel works in HELD, and the other takes nothing up. -/
def WorksHeld (s : State) : Prop := s.seq.state = .held ∧ s.seq.hold = true ∧ ∃ b, (s.chan b).atRest = false ∧
  ((s.chan b.other).atRest = true → captureAllowed s = false ∨ ((s.chan b.other).state = .done ∧
    ∀ x, inView s b.other = some x → isPending s x = false))

theorem not_offered_works {s : State} (h : WorksHeld s) : ¬Offered s := by
  obtain ⟨_, _, b, hwork, hother⟩ := h
  rintro ⟨_, hopen, c, hc⟩
  by_cases hcb : c = b
  · exact not_offeredAt_working hwork (hcb ▸ hc)
  · obtain rfl : c = b.other := by cases b <;> cases c <;> simp_all [Side.other]
    rcases hother hc.1 with hdark | ⟨hdone, hnone⟩
    · simp [hdark] at hopen
    · obtain ⟨_, hidle | ⟨x, hx, hpending⟩⟩ := hc
      · simp [hdone] at hidle
      · simp [hnone x hx] at hpending

/-- While a channel works in HELD only the waiting mark goes. -/
theorem react_works {s : State} (hscan : s.col.volState = .scanning) (h : WorksHeld s) :
    react s = s.setSeq { s.seq with waiting := false } := by
  obtain ⟨hheld, hhold, b, hwork, _⟩ := id h
  have hrest : bothAtRest s = false := by
    refine Bool.eq_false_iff.2 fun hrest => ?_
    simp [(bothAtRest_iff s).1 hrest b] at hwork
  have hsettled : isSettled s = false := by simp [isSettled, hrest]
  rw [react_held (offerBoth_unoffered (not_offered_works h)) hheld hscan, reactHeld, hhold, hsettled]
  exact takePause_waits (t := s.setSeq { s.seq with waiting := false }) hrest

/-! ### STEP (02 R39) -/

/-- The part with a step pending. -/
def stepping (d : Dir) (s : State) : State := s.setSeq { s.seq with pendingStep := some d }

theorem waitsForStep_stepping (d : Dir) (s : State) : waitsForStep (stepping d s) = waitsForStep s := by
  have hview : noneInViewPending (stepping d s) = noneInViewPending s := noneInViewPending_setSeq rfl rfl rfl rfl
  rw [waitsForStep, waitsForStep, isSettled, isSettled, hview]
  rfl

theorem worksHeld_setSeq {s : State} {q : Sequencer} (hs : q.state = s.seq.state) (hh : q.hold = s.seq.hold)
    (hp : q.p = s.seq.p) (hk : q.stack = s.seq.stack) (hb : q.stackBank = s.seq.stackBank) (h : WorksHeld s) :
    WorksHeld (s.setSeq q) := by
  obtain ⟨hheld, hhold, b, hwork, hother⟩ := h
  refine ⟨hs.trans hheld, hh.trans hhold, b, hwork, fun hrest => (hother hrest).imp_right fun ⟨hdone, hnone⟩ => ?_⟩
  exact ⟨hdone, fun x hx => hnone x ((inView_congr (s := s) (t := s.setSeq q) rfl hs hp hk hb b.other).symm.trans hx)⟩

theorem takeStep_set {d : Dir} {s : State} (h : waitsForStep s = false) : takeStep d s = react (stepping d s) := by
  have hwaits := (waitsForStep_stepping d s).trans h
  exact congrArg react (if_neg (Bool.eq_false_iff.1 hwaits))

/-- The part with a step taken up, the turn not yet begun. -/
def stepTaken (d : Dir) (s : State) : State := s.setSeq { s.seq with pendingStep := none, dir := d }

theorem carryStep_turns {d : Dir} {leaf : Nat} {s : State} (h : turnedLeaf s d = some leaf) :
    carryStep d s = beginTurn d (stepTaken d s) := by
  have hleaf : turnedLeaf (s.setSeq { s.seq with pendingStep := none }) d = some leaf :=
    (turnedLeaf_congr (s := s) (t := s.setSeq { s.seq with pendingStep := none }) rfl rfl d).trans h
  exact if_pos (by rw [hleaf]; rfl)

theorem takeStep_turns {d : Dir} {leaf : Nat} {s : State} (h : waitsForStep s = true)
    (hleaf : turnedLeaf s d = some leaf) (hup : s.seq.levels.platenUp = false) : takeStep d s =
      { s with chans := both .afterReset, seq := turningSeq d leaf (stepTaken d s) } := by
  obtain ⟨_, hheld, _, hrest, _⟩ := (waitsForStep_iff s).1 h
  have hstep : turnedLeaf (stepping d s) d = some leaf :=
    (turnedLeaf_congr (s := s) (t := stepping d s) rfl rfl d).trans hleaf
  have htaken : turnedLeaf (stepTaken d s) d = some leaf :=
    (turnedLeaf_congr (s := s) (t := stepTaken d s) rfl rfl d).trans hleaf
  have hbegun := beginTurn_held (s := stepTaken d s) htaken hheld hrest hup
  have hcarried : carryStep d (stepping d s) = beginTurn d (stepTaken d s) := carryStep_turns hstep
  rw [takeStep]
  refine (congrArg react (if_pos ((waitsForStep_stepping d s).trans h))).trans ?_
  exact (congrArg react (hcarried.trans hbegun)).trans (react_away rfl)

theorem stepRule_eq {w : Slot} {d : Dir} {s : State} (hw : dirOf w = some d)
    (hvol : s.col.volState = .scanning ∨ s.col.volState = .paused) : stepRule [w] s =
      if s.seq.mode ≠ .step then refuse .wrongState s
      else if (turnedLeaf s d).isNone then refuse .outOfRange s
      else if s.seq.pendingStep.isSome then refuse .busy s
      else ⟨.ok, [], takeStep d s⟩ := by
  rw [stepRule, if_neg (by rcases hvol with h | h <;> simp [h]), if_neg (by simp)]
  simp only [List.getD_cons_zero, hw]

theorem stepRule_ok {w : Slot} {d : Dir} {leaf : Nat} {s : State} (hw : dirOf w = some d)
    (hvol : s.col.volState = .scanning ∨ s.col.volState = .paused) (hmode : s.seq.mode = .step)
    (hleaf : turnedLeaf s d = some leaf) (hnone : s.seq.pendingStep = none) :
    stepRule [w] s = ⟨.ok, [], takeStep d s⟩ := by
  rw [stepRule_eq hw hvol]
  simp [hmode, hleaf, hnone]

/-! ### SET MODE (02 R49) -/

/-- The sequencer with a new mode and direction. -/
def modeSet (m : Mode) (d : Option Dir) (s : State) : State := s.setSeq { s.seq with
  mode := m, dir := d.getD s.seq.dir
  pendingStep := if s.seq.mode = .step ∧ m ≠ .step then none else s.seq.pendingStep }

theorem changeMode_set {m : Mode} {d : Option Dir} {s : State}
    (h : ¬(waitsForStep s = true ∧ s.seq.mode = .step ∧ m ≠ .step)) : changeMode m d s = react (modeSet m d s) := by
  refine congrArg react (if_neg fun hwaits => h ?_)
  simpa [and_assoc] using hwaits

theorem changeMode_decides {m : Mode} {d : Option Dir} {s : State} (h : waitsForStep s = true)
    (hmode : s.seq.mode = .step) (hm : m ≠ .step) : changeMode m d s = react (decideTurn (modeSet m d s)) := by
  refine congrArg react (if_pos ?_)
  simp [h, hmode, hm]

theorem modeRule_ok {ws : List Slot} {m : Mode} {d : Option Dir} {s : State} (hlen : ws.length = 3)
    (hws : readModeDir ws = some (m, d)) (hvol : s.col.volState = .scanning ∨ s.col.volState = .paused) :
    modeRule ws s = ⟨.ok, [], changeMode m d s⟩ := by
  rw [modeRule, if_neg (by rcases hvol with h | h <;> simp [h]), if_neg (by simp [hlen])]
  simp only [hws]

/-! ### RESOLVE (02 R50) -/

theorem resolutionAllowed_iff {c : FaultCause} {q : Resolution} : resolutionAllowed c q = true ↔
    if c = .doubleTurn then q = .giveBack ∨ q = .advance else q = .retry ∨ q = .hand := by
  cases c <;> cases q <;> simp [resolutionAllowed]

theorem resolveRule_fault {w : Slot} {q : Resolution} {r : FaultRecord} {s : State} (hw : resolutionOf w = some q)
    (hvol : s.col.volState = .paused) (hstate : s.seq.state = .fault) (hfault : s.seq.fault = some r) :
    resolveRule [w] s = resolveFault q r s := by
  rw [resolveRule, if_neg (by simp [hvol]), if_neg (by simp)]
  simp only [List.getD_cons_zero, hw, hstate, hfault]

theorem resolveRule_noFault {w : Slot} {q : Resolution} {s : State} (hw : resolutionOf w = some q)
    (hvol : s.col.volState = .paused) (hstate : s.seq.state ≠ .fault) : resolveRule [w] s = refuse .wrongState s := by
  rw [resolveRule, if_neg (by simp [hvol]), if_neg (by simp)]
  simp only [List.getD_cons_zero, hw]
  split
  · exact absurd ‹s.seq.state = .fault› hstate
  · rfl

/-! ### The statement -/

/-- The sequencer as SET MODE leaves STEP mode. -/
def stepLeft (m : Mode) (d : Option Dir) (s : State) : State :=
  s.setSeq { s.seq with mode := m, dir := d.getD s.seq.dir, pendingStep := none }

theorem modeSet_left {m : Mode} {d : Option Dir} {s : State} (hmode : s.seq.mode = .step) (hm : m ≠ .step) :
    modeSet m d s = stepLeft m d s := by
  rw [modeSet, if_pos ⟨hmode, hm⟩, stepLeft]

section
variable {s : State} {m : Mode} {d : Option Dir} (hwaits : waitsForStep s = true) (hmode : s.seq.mode = .step)
  (hm : m ≠ .step)
include hwaits hmode hm

theorem changeMode_ahead {leaf : Nat} (hahead : SideAhead s (d.getD s.seq.dir))
    (hleaf : turnedLeaf s (d.getD s.seq.dir) = some leaf) (hup : s.seq.levels.platenUp = false) : changeMode m d s =
      { s with chans := both .afterReset, seq := turningSeq (d.getD s.seq.dir) leaf (stepLeft m d s) } := by
  obtain ⟨_, hheld, _, hrest, _⟩ := (waitsForStep_iff s).1 hwaits
  have hset : SideAhead (stepLeft m d s) (d.getD s.seq.dir) :=
    (sideAhead_of (s := s) (t := stepLeft m d s) rfl rfl rfl _).2 hahead
  have hturn : turnedLeaf (stepLeft m d s) (d.getD s.seq.dir) = some leaf :=
    (turnedLeaf_congr (s := s) (t := stepLeft m d s) rfl rfl _).trans hleaf
  rw [changeMode_decides hwaits hmode hm, modeSet_left hmode hm, decideTurn_ahead (s := stepLeft m d s) hset]
  exact (congrArg react (beginTurn_held (s := stepLeft m d s) hturn hheld hrest hup)).trans (react_away rfl)

theorem changeMode_behind {leaf : Nat} (hnot : ¬SideAhead s (d.getD s.seq.dir))
    (hahead : SideAhead s (d.getD s.seq.dir).opposite)
    (hleaf : turnedLeaf s (d.getD s.seq.dir).opposite = some leaf) (hup : s.seq.levels.platenUp = false) :
    changeMode m d s = { s with
      chans := both .afterReset
      seq := turningSeq (d.getD s.seq.dir).opposite leaf (turnedRound (stepLeft m d s)) } := by
  obtain ⟨_, hheld, _, hrest, _⟩ := (waitsForStep_iff s).1 hwaits
  have hset (c : Dir) : SideAhead (stepLeft m d s) c ↔ SideAhead s c :=
    sideAhead_of (s := s) (t := stepLeft m d s) rfl rfl rfl c
  have hturn : turnedLeaf (turnedRound (stepLeft m d s)) (d.getD s.seq.dir).opposite = some leaf :=
    (turnedLeaf_congr (s := s) (t := turnedRound (stepLeft m d s)) rfl rfl _).trans hleaf
  rw [changeMode_decides hwaits hmode hm, modeSet_left hmode hm,
    decideTurn_behind (s := stepLeft m d s) (mt (hset _).1 hnot) ((hset _).2 hahead)]
  exact (congrArg react (beginTurn_held (s := turnedRound (stepLeft m d s)) hturn hheld hrest hup)).trans
    (react_away rfl)

theorem changeMode_over (hnot : ¬SideAhead s (d.getD s.seq.dir)) (hback : ¬SideAhead s (d.getD s.seq.dir).opposite) :
    changeMode m d s = volumeEnded (modeSet m d s) := by
  obtain ⟨hscan, _, _, hrest, _⟩ := (waitsForStep_iff s).1 hwaits
  have hset (c : Dir) : SideAhead (modeSet m d s) c ↔ SideAhead s c :=
    sideAhead_of (s := s) (t := modeSet m d s) rfl rfl rfl c
  rw [changeMode_decides hwaits hmode hm,
    decideTurn_over (s := modeSet m d s) hscan hrest (mt (hset _).1 hnot) (mt (hset _).1 hback)]
  exact react_still nofun

end

/-- Settles O20. -/
theorem stepModeAndResolution : Obligations.StepModeAndResolution := by
  intro tag w s htakes
  refine ⟨fun d hw hvol => ⟨fun hmode => ?_, fun hmode hleaf => ?_, fun hmode hleaf hstep => ?_,
      fun leaf hmode hleaf hnone => ⟨fun hquiet => ?_, fun hscan hwaits => ?_, fun hscan hwaits hup => ?_⟩⟩,
    fun ws m d hlen hws hvol => ⟨fun hquiet => ?_, fun hscan hset => ?_, fun hscan hwaits hmode hm hup =>
      ⟨fun leaf hahead hleaf => ?_, fun leaf hnot hahead hleaf => ?_, fun hnot hback => ?_⟩⟩,
    fun q hq hvol => ⟨fun hstate => exec_answers htakes rfl (resolveRule_noFault hq hvol hstate),
      fun r hstate hfault => ⟨fun hnot => ?_, fun hok hq' hnone => ?_, fun hok hfree => ?_⟩⟩⟩
  · exact exec_answers htakes rfl ((stepRule_eq hw hvol).trans (if_pos hmode))
  · refine exec_answers htakes rfl ((stepRule_eq hw hvol).trans ?_)
    simp [hmode, hleaf, refuse]
  · refine exec_answers htakes rfl ((stepRule_eq hw hvol).trans ?_)
    rw [if_neg (not_not.2 hmode), if_neg (by simpa using hleaf),
      if_pos (Option.isSome_iff_ne_none.2 hstep), refuse]
  · refine exec_answers htakes rfl ((stepRule_ok hw hvol hmode hleaf hnone).trans ?_)
    rw [takeStep_set (waitsForStep_quiet hquiet), react_paused_or_away (s := stepping d s) hquiet]
    rfl
  · have hwaiting : waitsForStep s = false := Bool.eq_false_iff.2 fun h => hwaits ((waitsForStep_iff s).1 h).2
    refine ⟨exec_answers htakes rfl ((stepRule_ok hw hvol hmode hleaf hnone).trans ?_), fun hworks => ?_⟩
    · rw [takeStep_set hwaiting]
      rfl
    · exact react_works (s := stepping d s) hscan (worksHeld_setSeq rfl rfl rfl rfl rfl hworks)
  · have hturns := takeStep_turns ((waitsForStep_iff s).2 ⟨hscan, hwaits⟩) hleaf hup
    refine exec_answers htakes rfl ((stepRule_ok hw hvol hmode hleaf hnone).trans ?_)
    rw [hturns, ← hmode]
    rfl
  · have hwaiting := waitsForStep_quiet hquiet
    refine exec_answers htakes rfl ((modeRule_ok hlen hws hvol).trans ?_)
    rw [changeMode_set (by simp [hwaiting]), react_paused_or_away (s := modeSet m d s) hquiet]
    rfl
  · refine ⟨exec_answers htakes rfl ((modeRule_ok hlen hws hvol).trans ?_), fun hworks => ?_⟩
    · rw [changeMode_set fun h => hset ⟨((waitsForStep_iff s).1 h.1).2, h.2⟩]
      rfl
    · exact react_works (s := modeSet m d s) hscan (worksHeld_setSeq rfl rfl rfl rfl rfl hworks)
  · have h := changeMode_ahead (d := d) ((waitsForStep_iff s).2 ⟨hscan, hwaits⟩) hmode hm hahead hleaf hup
    refine exec_answers htakes rfl ((modeRule_ok hlen hws hvol).trans ?_)
    rw [h]
    rfl
  · have h := changeMode_behind (d := d) ((waitsForStep_iff s).2 ⟨hscan, hwaits⟩) hmode hm hnot hahead hleaf hup
    refine exec_answers htakes rfl ((modeRule_ok hlen hws hvol).trans ?_)
    rw [h]
    rfl
  · have h := changeMode_over (d := d) ((waitsForStep_iff s).2 ⟨hscan, hwaits⟩) hmode hm hnot hback
    refine exec_answers htakes rfl ((modeRule_ok hlen hws hvol).trans ?_)
    rw [h]
    rfl
  · have hdenied : resolutionAllowed r.cause q = false := Bool.eq_false_iff.2 (mt resolutionAllowed_iff.1 hnot)
    exact exec_answers htakes rfl ((resolveRule_fault hq hvol hstate hfault).trans (if_pos hdenied))
  · have hallowed : ¬resolutionAllowed r.cause q = false := by simp [resolutionAllowed_iff.2 hok]
    refine exec_answers htakes rfl ((resolveRule_fault hq hvol hstate hfault).trans ?_)
    exact (if_neg hallowed).trans (if_pos ⟨hq', hnone⟩)
  · have hallowed : ¬resolutionAllowed r.cause q = false := by simp [resolutionAllowed_iff.2 hok]
    refine exec_answers htakes rfl ((resolveRule_fault hq hvol hstate hfault).trans ?_)
    exact (if_neg hallowed).trans (if_neg fun h => hfree.elim (absurd h.1) (absurd h.2))

end Sys2Proof.Machine
end

section
/-! PROOFS of the family `other`: the re-offer of a fold-out (07 R145) and the trees of fold-outs below a face. -/
namespace Sys2Proof.Machine

/-! ### The trees of fold-outs -/

/-- The nested fold-outs that a fold-out's panels name, in order: all that a tree depends on. -/
def nests (s : State) (f : Nat) : List (Option Nat) := ((panelsOf s f).getD []).map (·.nested)

theorem length_nests (s : State) (f : Nat) : (nests s f).length = ((panelsOf s f).getD []).length := List.length_map _

theorem foldTree_succ (s : State) (depth f : Nat) : foldTree s (depth + 1) f =
    f :: (nests s f).flatMap fun g => (g.map (foldTree s depth)).getD [] := by
  rw [foldTree, nests, List.flatMap_map]
  congr 2
  funext p
  cases p.nested <;> rfl

section
variable {s t : State} (h : nests t = nests s)
include h

theorem foldTree_of (depth f : Nat) : foldTree t depth f = foldTree s depth f := by
  induction depth generalizing f with
  | zero => rfl
  | succ depth ih =>
    have hih : foldTree t depth = foldTree s depth := funext ih
    rw [foldTree_succ, foldTree_succ, h, hih]

theorem panelsUnder_of (fs : List Nat) : panelsUnder t fs = panelsUnder s fs := by
  simp only [panelsUnder, ← length_nests, h]

theorem panelsBelow_of (f : Nat) : panelsUnder t (coveredFoldouts t f) = panelsUnder s (coveredFoldouts s f) := by
  rw [panelsUnder_of h, coveredFoldouts, foldTree_of h, coveredFoldouts]

end

theorem nests_of {s t : State} (h : t.col.foldouts = s.col.foldouts) : nests t = nests s := by
  funext f
  rw [nests, panelsOf, h, nests, panelsOf]

theorem fieldsOf_of {s t : State} (hl : t.col.leaves = s.col.leaves) (hf : t.col.foldouts = s.col.foldouts) :
    fieldsOf t = fieldsOf s := by
  funext x
  cases x with
  | side leaf f => rw [fieldsOf, hl, fieldsOf]
  | panel f n => rw [fieldsOf, panelsOf, hf, fieldsOf, panelsOf]

theorem stateOf_of {s t : State} (hl : t.col.leaves = s.col.leaves) (hf : t.col.foldouts = s.col.foldouts) :
    stateOf t = stateOf s := by
  funext x
  rw [stateOf, fieldsOf_of hl hf, stateOf]

theorem nests_modifyFields (x : Target) (g : TallyFields → TallyFields) (s : State) :
    nests (modifyFields x g s) = nests s := by
  cases x with
  | side leaf f => rfl
  | panel f n =>
    have hpanels (ps : List PanelRecord) :
        (ps.modify (n - 1) fun p => { p with tally := g p.tally }).map (·.nested) = ps.map (·.nested) := by
      refine List.ext_getElem? fun i => ?_
      simp only [List.getElem?_map, List.getElem?_modify]
      cases ps[i]? with
      | none => rfl
      | some p => split <;> rfl
    simp only [modifyFields]
    split
    · rfl
    · funext k
      simp only [nests, panelsOf, List.getElem?_modify]
      cases s.col.foldouts[k]? with
      | none => rfl
      | some ps =>
        split
        · cases ps with
          | none => rfl
          | some ps => exact hpanels ps
        · rfl

theorem nests_changeState (x : Target) (a b : TState) (s : State) : nests (changeState x a b s) = nests s :=
  (nests_of (congrArg Collation.foldouts (moveCount_col ..))).trans (nests_modifyFields ..)

theorem fieldsOf_changeState (s : State) (x u : Target) (a b : TState) : fieldsOf (changeState x a b s) u =
    if u = x then (fieldsOf s x).map ({ · with state := b }) else fieldsOf s u :=
  (fieldsOf_col (moveCount_col ..) u).trans (fieldsOf_modifyFields ..)

/-! ### One panel re-offered -/

/-- A target that a re-offer makes PENDING again. -/
def Refused (s : State) (x : Target) : Prop := stateOf s x = some .rejected ∨ stateOf s x = some .withheld

/-- One target of a re-offer (07 R145). -/
def reOfferOne (s : State) (x : Target) : State :=
  if stateOf s x = some .rejected ∨ stateOf s x = some .withheld then unsettle x s else s

theorem reOfferOne_kept {s : State} {x : Target} (h : ¬Refused s x) : reOfferOne s x = s := if_neg h

theorem reOfferOne_refused {s : State} {x : Target} (h : Refused s x) :
    ∃ a, stateOf s x = some a ∧ reOfferOne s x = changeState x a .pending s := by
  have hone : reOfferOne s x = unsettle x s := if_pos h
  rcases h with h | h
  · exact ⟨.rejected, h, hone.trans (unsettle_of_settled h nofun)⟩
  · exact ⟨.withheld, h, hone.trans (unsettle_of_settled h nofun)⟩

theorem nests_reOfferOne (s : State) (x : Target) : nests (reOfferOne s x) = nests s := by
  by_cases h : Refused s x
  · obtain ⟨a, _, hone⟩ := reOfferOne_refused h
    rw [hone, nests_changeState]
  · rw [reOfferOne_kept h]

theorem fieldsOf_reOfferOne (s : State) (x u : Target) [Decidable (u = x ∧ Refused s u)] : fieldsOf (reOfferOne s x) u =
    if u = x ∧ Refused s u then (fieldsOf s u).map ({ · with state := .pending }) else fieldsOf s u := by
  by_cases h : Refused s x
  · obtain ⟨a, _, hone⟩ := reOfferOne_refused h
    rw [hone, fieldsOf_changeState]
    by_cases hu : u = x
    · subst hu
      rw [if_pos rfl, if_pos ⟨rfl, h⟩]
    · rw [if_neg hu, if_neg fun k => hu k.1]
  · rw [reOfferOne_kept h, if_neg]
    rintro ⟨rfl, k⟩
    exact h k

theorem refused_reOfferOne (s : State) (x u : Target) : Refused (reOfferOne s x) u ↔ u ≠ x ∧ Refused s u := by
  classical
  by_cases hu : u = x ∧ Refused s u
  · obtain ⟨rfl, h⟩ := hu
    have hpending : stateOf (reOfferOne s u) u = (stateOf s u).map fun _ => .pending := by
      rw [stateOf, fieldsOf_reOfferOne, if_pos ⟨rfl, h⟩, stateOf, Option.map_map, Option.map_map]
      rfl
    rcases h with h | h <;> simp [Refused, hpending, h]
  · have hkept : stateOf (reOfferOne s x) u = stateOf s u := by
      rw [stateOf, fieldsOf_reOfferOne, if_neg hu, stateOf]
    rw [Refused, hkept, ← Refused]
    exact ⟨fun h => ⟨fun k => hu ⟨k, h⟩, h⟩, fun h => h.2⟩

/-! ### A list of targets re-offered -/

theorem nests_reOfferAll (xs : List Target) (s : State) : nests (xs.foldl reOfferOne s) = nests s := by
  induction xs generalizing s with
  | nil => rfl
  | cons x xs ih => rw [List.foldl_cons, ih, nests_reOfferOne]

theorem fieldsOf_reOfferAll (xs : List Target) (s : State) (u : Target) [Decidable (u ∈ xs ∧ Refused s u)] :
    fieldsOf (xs.foldl reOfferOne s) u =
      if u ∈ xs ∧ Refused s u then (fieldsOf s u).map ({ · with state := .pending }) else fieldsOf s u := by
  classical
  induction xs generalizing s with
  | nil => rw [if_neg fun h => nomatch h.1]; rfl
  | cons x xs ih =>
    rw [List.foldl_cons, ih, fieldsOf_reOfferOne]
    simp only [refused_reOfferOne, List.mem_cons]
    by_cases hu : u = x <;> by_cases hr : Refused s u <;> by_cases hx : u ∈ xs <;> simp [hu, hr, hx]

theorem reOfferAll_kept {xs : List Target} {s : State} (h : ∀ x ∈ xs, ¬Refused s x) : xs.foldl reOfferOne s = s := by
  induction xs with
  | nil => rfl
  | cons x xs ih =>
    rw [List.forall_mem_cons] at h
    rw [List.foldl_cons, reOfferOne_kept h.1, ih h.2]

/-- Two states that differ in the panels' records and counts alone. -/
def PanelsAlone (s t : State) : Prop := t = { s with
  col := { s.col with foldouts := t.col.foldouts }, tally := { s.tally with panelCounts := t.tally.panelCounts } }

theorem panelsAlone_trans {s t u : State} (h : PanelsAlone s t) (k : PanelsAlone t u) : PanelsAlone s u := by
  rw [PanelsAlone] at h k ⊢
  rw [h] at k
  exact k

theorem panelsAlone_changeState (f n : Nat) (a b : TState) (s : State) :
    PanelsAlone s (changeState (.panel f n) a b s) := by
  simp only [PanelsAlone, changeState, moveCount, modifyFields]
  split <;> rfl

theorem panelsAlone_reOfferAll {xs : List Target} (hpanels : ∀ x ∈ xs, ∃ f n, x = .panel f n) (s : State) :
    PanelsAlone s (xs.foldl reOfferOne s) := by
  induction xs generalizing s with
  | nil => rfl
  | cons x xs ih =>
    rw [List.forall_mem_cons] at hpanels
    obtain ⟨⟨f, n, rfl⟩, hrest⟩ := hpanels
    refine panelsAlone_trans ?_ (ih hrest _)
    by_cases h : Refused s (.panel f n)
    · obtain ⟨a, _, hone⟩ := reOfferOne_refused h
      rw [hone]
      exact panelsAlone_changeState ..
    · rw [reOfferOne_kept h]
      rfl

/-! ### A fold-out re-offered -/

/-- The panels of a fold-out and below it. -/
def panelsBelow (s : State) (f : Nat) : List Target := panelsUnder s (coveredFoldouts s f)

theorem reOffer_eq (f : Nat) (s : State) : reOffer f s = (panelsBelow s f).foldl reOfferOne s := rfl

theorem panel_of_mem_panelsUnder {s : State} {fs : List Nat} {x : Target} (h : x ∈ panelsUnder s fs) :
    ∃ f n, x = .panel f n := by
  simp only [panelsUnder, List.mem_flatMap, List.mem_map] at h
  obtain ⟨f, _, i, _, rfl⟩ := h
  exact ⟨f, i + 1, rfl⟩

theorem panelsAlone_reOffer (f : Nat) (s : State) : PanelsAlone s (reOffer f s) :=
  panelsAlone_reOfferAll (fun _ h => panel_of_mem_panelsUnder h) s

theorem pendingBelow_iff {s : State} {f : Nat} :
    pendingBelow s f = true ↔ ∃ x ∈ panelsBelow s f, stateOf s x = some .pending := by
  simp [pendingBelow, panelsBelow, isPending]

theorem pendingBelow_reOffer {s : State} {f : Nat} : pendingBelow (reOffer f s) f = true ↔
    ∃ x ∈ panelsBelow s f, stateOf s x = some .pending ∨ Refused s x := by
  classical
  have hbelow : panelsBelow (reOffer f s) f = panelsBelow s f := panelsBelow_of (nests_reOfferAll _ _) f
  rw [pendingBelow_iff, hbelow]
  refine exists_congr fun x => and_congr_right fun hx => ?_
  rw [stateOf, reOffer_eq, fieldsOf_reOfferAll]
  by_cases h : Refused s x
  · rw [if_pos ⟨hx, h⟩]
    have hsome : stateOf s x ≠ none := by rcases h with h | h <;> simp [h]
    simp only [h, or_true, iff_true]
    cases hf : fieldsOf s x with
    | none => exact absurd (by rw [stateOf, hf]; rfl) hsome
    | some q => rfl
  · rw [if_neg fun k => h k.2, ← stateOf]
    simp [h]

end Sys2Proof.Machine
end

section
/-! PROOFS of the family `other`: RESUME from a rest state and the settled opening (02 R37 to R42, R48). -/
namespace Sys2Proof.Machine

/-! ### What a change of the volume state leaves -/

theorem turnedLeaf_of {s t : State} (hl : t.col.leaves = s.col.leaves) (hv : t.col.volume = s.col.volume)
    (hp : t.seq.p = s.seq.p) (d : Dir) : turnedLeaf t d = turnedLeaf s d := by
  cases d with
  | forward => simp only [turnedLeaf, leafCount_congr hv, hp]
  | backward => simp only [turnedLeaf, presentBefore_of (present_of hl hv), hp]

theorem inView_of {s t : State} (hl : t.col.leaves = s.col.leaves) (hv : t.col.volume = s.col.volume)
    (hs : t.seq.state = s.seq.state) (hp : t.seq.p = s.seq.p) (hk : t.seq.stack = s.seq.stack)
    (hb : t.seq.stackBank = s.seq.stackBank) (b : Side) : inView t b = inView s b := by
  have hpresent := present_of hl hv
  have hside : sideInView t b = sideInView s b := by
    rw [sideInView, sideInView, State.turning, State.turning, hv, hpresent, hp, presentBefore_of hpresent]
  cases hstate : s.seq.state <;> simp only [inView, hs, hstate, hk, hb, hv, hside]

theorem isPending_of {s t : State} (hl : t.col.leaves = s.col.leaves) (hf : t.col.foldouts = s.col.foldouts) :
    isPending t = isPending s := by
  funext x
  rw [isPending, stateOf_of hl hf, isPending]

/-! ### RESUME with no fault -/

/-- The part SCANNING again, its sequencer as it was. -/
def scanningOn (s : State) : State := { s with col := { s.col with volState := .scanning } }

/-- The disturbed flag cleared. -/
def undisturbed (s : State) : State := s.setSeq { s.seq with disturbed := false }

theorem undisturbed_self {s : State} (h : s.seq.disturbed = false) : undisturbed s = s := by
  have hseq (q : Sequencer) (hq : q.disturbed = false) : { q with disturbed := false } = q := by
    cases q
    cases hq
    rfl
  rw [undisturbed, hseq _ h]
  rfl

theorem scanningAgain_noFault {s : State} (h : s.seq.fault = none) :
    scanningAgain s = undisturbed (scanningOn s) := by
  have hseq (q : Sequencer) (hq : q.fault = none) :
      ({ q with fault := none, disturbed := false } : Sequencer) = { q with disturbed := false } := by
    cases q
    cases hq
    rfl
  rw [scanningAgain, hseq _ h]
  rfl

theorem resumeVolume_noFault {s : State} (h : s.seq.fault = none) :
    resumeVolume s = react (resumeRest s.seq.disturbed (undisturbed (scanningOn s))) := by
  rw [← scanningAgain_noFault h]
  simp only [resumeVolume, h]
  rfl

section
variable {s : State}

theorem resumeRest_stands {disturbed : Bool}
    (h : s.seq.state = .handWait ∨ (s.seq.state = .foldWait ∧ disturbed = false)) : resumeRest disturbed s = s := by
  rcases h with h | ⟨h, rfl⟩
  · cases disturbed <;> simp only [resumeRest, h]
  · simp only [resumeRest, h]

theorem resumeRest_grants (h : s.seq.state = .held ∨ s.seq.state = .panelHeld) : resumeRest false s = grantHold s := by
  rcases h with h | h <;> simp only [resumeRest, h]

theorem resumeRest_presents (h : s.seq.state = .held) : resumeRest true s = enterPresent (restoring s) := by
  simp only [resumeRest, h, restoring]

theorem resumeRest_raises (h : s.seq.state = .foldWait) : resumeRest true s = enterPlatenUp .foldRaise s := by
  simp only [resumeRest, h]

theorem resumeRest_raisesPanel (h : s.seq.state = .panelHeld) :
    resumeRest true s = enterPlatenUp .foldRaise (setPhase .presentNext s) := by
  simp only [resumeRest, h]

/-! ### A disturbed rest state -/

/-- PRESENT entered again from a disturbed HELD ends the visits. -/
theorem present_again (hheld : s.seq.state = .held) (hrest : bothAtRest s = true)
    (hcontact : (s.seq.levels.leftContact && s.seq.levels.rightContact) = false) :
    enterPresent (restoring s) = { s with
      chans := both .afterReset
      seq := { s.seq with
        state := .present, kind := some .restore, hold := false, holdGiven := false, waiting := false
        motionLeft := motionLimit s .present, outputs := presentDrive s s.seq.outputs } } := by
  rw [enterPresent_away (by exact hcontact), enterMotion_held (s := restoring s) .present _ hheld hrest]
  rfl

/-- The platen raised again over a fold-out, without the lifts. -/
theorem foldRaise_again (hs : s.seq.state = .foldWait) (hup : s.seq.levels.platenUp = false) :
    enterPlatenUp .foldRaise s = reseat { s.seq with
      state := .platenUp, kind := some .foldRaise, motionLeft := motionLimit s .platenUp
      outputs := { s.seq.outputs with platen := .up } } s := by
  rw [enterPlatenUp_below hup, enterMotion_plain (s := raising .foldRaise s) (hs ▸ nofun) (hs ▸ nofun)]
  exact reseat_setSeq rfl rfl rfl rfl

/-- With both channels at rest a motion entered from HELD or PANEL_HELD ends both visits and the hold. -/
theorem enterMotion_leaves (m : Motion) (drive : Outputs → Outputs)
    (hs : s.seq.state = .held ∨ s.seq.state = .panelHeld) (hrest : bothAtRest s = true) : enterMotion m drive s =
      reseat { s.seq with
        state := m.state, hold := false, holdGiven := false, waiting := false, motionLeft := motionLimit s m
        outputs := drive s.seq.outputs } { s with chans := both .afterReset } := by
  have hne : s.seq.state ≠ m.state := by rcases hs with h | h <;> cases m <;> simp [h, Motion.state]
  rw [enterMotion, goto_leaves hs hne hrest]
  exact setSeq_reseat rfl rfl rfl rfl

/-- The top entry of the stack to be presented again. -/
def rephased (e : StackEntry) (rest : List StackEntry) (s : State) : State :=
  s.setSeq { s.seq with stack := { e with phase := .presentNext } :: rest }

/-- From a disturbed PANEL_HELD the platen is raised again, the panel's entry in PRESENT_NEXT. -/
theorem foldRaise_panel {e : StackEntry} {rest : List StackEntry} (hs : s.seq.state = .panelHeld)
    (hstack : s.seq.stack = e :: rest) (hrest : bothAtRest s = true) (hup : s.seq.levels.platenUp = false) :
    enterPlatenUp .foldRaise (setPhase .presentNext s) = reseat { s.seq with
      state := .platenUp, kind := some .foldRaise, hold := false, holdGiven := false, waiting := false
      stack := { e with phase := .presentNext } :: rest, motionLeft := motionLimit s .platenUp
      outputs := { s.seq.outputs with platen := .up } } { s with chans := both .afterReset } := by
  have hview (b : Side) : inView ({ s with chans := both .afterReset }.setSeq
      (raising .foldRaise (rephased e rest s)).seq) b = inView { s with chans := both .afterReset } b := by
    have hshows := congrArg SeqState.showsStack hs
    have hbefore := inView_stack (s := { s with chans := both .afterReset }) hshows b
    rw [hstack] at hbefore
    exact Eq.trans (inView_stack (s := { s with chans := both .afterReset }.setSeq
      (raising .foldRaise (rephased e rest s)).seq) hshows b) hbefore.symm
  have hphase : setPhase .presentNext s = rephased e rest s := setPhase_eq hstack _
  rw [hphase, enterPlatenUp_below (s := rephased e rest s) hup,
    enterMotion_leaves (s := raising .foldRaise (rephased e rest s)) .platenUp _ (.inr hs) hrest]
  exact reseat_of_inView hview

end

/-! ### The fold-out that a bank would open (02 R42) -/

/-- A bank would open a fold-out. -/
def Opens (s : State) (b : Side) (g : Nat) : Prop :=
  ∃ leaf f, inView s b = some (.side leaf f) ∧ (leafAt s leaf).foldout = some (f, g) ∧ s.seq.foldMark.get b = false ∧
    ((∃ x ∈ panelsBelow s g, stateOf s x = some .pending) ∨ s.seq.settledHere.get b = true)

theorem foldoutToOpen_eq_some {s : State} {b : Side} {g : Nat} : foldoutToOpen s b = some g ↔ Opens s b g := by
  simp only [Opens, ← pendingBelow_iff]
  rw [foldoutToOpen]
  cases hview : inView s b with
  | none => simp
  | some x =>
    cases x with
    | panel k n => simp
    | side leaf f =>
      cases hfold : (leafAt s leaf).foldout with
      | none => simp [hfold]
      | some fg =>
        obtain ⟨face, k⟩ := fg
        simp only [hfold, Option.ite_none_right_eq_some, Option.some.injEq, Target.side.injEq]
        constructor
        · rintro ⟨⟨rfl, hmark, hbelow⟩, rfl⟩
          exact ⟨leaf, face, ⟨rfl, rfl⟩, hfold, hmark, hbelow⟩
        · rintro ⟨_, _, ⟨rfl, rfl⟩, hfold', hmark, hbelow⟩
          obtain ⟨rfl, rfl⟩ := Prod.mk.inj (Option.some.inj (hfold.symm.trans hfold'))
          exact ⟨⟨rfl, hmark, hbelow⟩, rfl⟩

theorem foldoutToOpen_eq_none {s : State} {b : Side} : foldoutToOpen s b = none ↔ ∀ g, ¬Opens s b g := by
  rw [Option.eq_none_iff_forall_ne_some]
  simp only [ne_eq, foldoutToOpen_eq_some]

/-- A bank opens its fold-out first where bank L, tested before bank R, opens none. -/
theorem settledFold_opens {s t : State} {b : Side} {g : Nat} {opened : Bool} (h : Opens s b g)
    (hfirst : b = .right → ∀ k, ¬Opens s .left k) (hopen : openFoldout b g s = (t, opened)) :
    settledFold s = if opened then t else settledTurn t := by
  have hb := foldoutToOpen_eq_some.2 h
  cases b with
  | left =>
    simp only [settledFold, hb, hopen]
    cases opened <;> rfl
  | right =>
    simp only [settledFold, foldoutToOpen_eq_none.2 (hfirst rfl), hb, Option.map_some, hopen]
    cases opened <;> rfl

end Sys2Proof.Machine
end

section
/-! PROOFS of the family `other`: the opening that RESUME settles, its fold-out opened or its turn chosen
(02 R37 to R42, R48). -/
namespace Sys2Proof.Machine

/-! ### A fold-out opened (02 R42) -/

/-- The fold-out mark of a bank set. -/
def marked (b : Side) (s : State) : State := s.setSeq { s.seq with foldMark := s.seq.foldMark.set b true }

/-- A bank's stack begun, with nothing on it yet. -/
def stackBegun (b : Side) (s : State) : State := s.setSeq { s.seq with stackBank := some b, stack := [] }

/-- The part raising the platen over a fold-out pushed from HELD. -/
def foldRaised (b : Side) (g : Nat) (s : State) : State :=
  { s with
    chans := both .afterReset
    lamps := { s.lamps with cut := s.lamps.cut.set b false }
    seq := { s.seq with
      state := .platenUp, kind := some .foldRaise, stackBank := some b, stack := [⟨g, 1, .presentNext⟩]
      hold := false, holdGiven := false, waiting := false, motionLeft := motionLimit s .platenUp
      outputs := { s.seq.outputs with platen := .up } } }

theorem openFoldout_passes {s : State} {b : Side} {g : Nat}
    (h : ∀ x ∈ panelsBelow s g, stateOf s x ≠ some .pending ∧ ¬Refused s x) :
    openFoldout b g s = (marked b s, false) := by
  have hbelow : ¬∃ x ∈ panelsBelow (marked b s) g, stateOf (marked b s) x = some .pending ∨ Refused (marked b s) x :=
    fun ⟨x, hx, hs⟩ => hs.elim (h x hx).1 (h x hx).2
  have hreoffer : reOffer g (marked b s) = marked b s := reOfferAll_kept fun x hx => (h x hx).2
  have hnone : ¬pendingBelow (reOffer g (marked b s)) g = true := mt pendingBelow_reOffer.1 hbelow
  have hopen : openFoldout b g s = (reOffer g (marked b s), false) := if_neg hnone
  rw [hopen, hreoffer]

section
variable {s : State} (hheld : s.seq.state = .held) (hrest : bothAtRest s = true) (hup : s.seq.levels.platenUp = false)
include hheld hrest hup

theorem foldRaise_opened (b : Side) (g : Nat) :
    enterPlatenUp .foldRaise (pushFoldout g (stackBegun b s)) = foldRaised b g s := by
  have hpush : pushFoldout g (stackBegun b s) =
      (uncut b s).setSeq { s.seq with stackBank := some b, stack := [⟨g, 1, .presentNext⟩] } := by
    have hshows : s.seq.state.showsSides = true := hheld ▸ rfl
    rw [pushFoldout_eq, reseat_showsSides
      (q := { (stackBegun b s).seq with stack := ⟨g, 1, .presentNext⟩ :: (stackBegun b s).seq.stack })
      (s := stackBegun b s) hshows hshows rfl]
    exact clearStackCut_some rfl
  rw [hpush, enterPlatenUp_below (by exact hup)]
  exact enterMotion_held (s := raising .foldRaise ((uncut b s).setSeq _)) .platenUp _ hheld hrest

theorem openFoldout_raises {b : Side} {g : Nat}
    (h : ∃ x ∈ panelsBelow s g, stateOf s x = some .pending ∨ Refused s x) :
    openFoldout b g s = (foldRaised b g (reOffer g (marked b s)), true) := by
  have halone := panelsAlone_reOffer g (marked b s)
  have hbelow : pendingBelow (reOffer g (marked b s)) g = true := pendingBelow_reOffer.2 h
  have hopen : openFoldout b g s =
      (enterPlatenUp .foldRaise (pushFoldout g (stackBegun b (reOffer g (marked b s)))), true) := if_pos hbelow
  have hseq : (reOffer g (marked b s)).seq = (marked b s).seq := by rw [halone]
  have hchans : (reOffer g (marked b s)).chans = s.chans := by rw [halone]; rfl
  have hrest' : bothAtRest (reOffer g (marked b s)) = true := by
    have hchan (c : Side) : (reOffer g (marked b s)).chan c = s.chan c := congrArg (·.get c) hchans
    rw [bothAtRest_iff] at hrest ⊢
    exact fun c => hchan c ▸ hrest c
  rw [hopen, foldRaise_opened (by rw [hseq]; exact hheld) hrest' (by rw [hseq]; exact hup)]

end

/-- What a re-offer leaves alone is left alone as the platen is raised. -/
theorem foldRaised_of_alone {s u : State} (h : PanelsAlone s u) (b : Side) (g : Nat) : foldRaised b g u =
    { foldRaised b g s with
      col := { s.col with foldouts := (foldRaised b g u).col.foldouts }
      tally := { s.tally with panelCounts := (foldRaised b g u).tally.panelCounts } } := by
  have hraised : foldRaised b g u = { foldRaised b g s with
      col := { s.col with foldouts := u.col.foldouts }
      tally := { s.tally with panelCounts := u.tally.panelCounts } } := by
    rw [PanelsAlone] at h
    rw [h]
    rfl
  exact hraised

/-! ### The turn chosen (02 R38, R39) -/

theorem stepTaken_self {s : State} {d : Dir} (hstep : s.seq.pendingStep = none) (hdir : s.seq.dir = d) :
    stepTaken d s = s := by
  subst hdir
  rw [stepTaken, ← hstep]
  rfl

theorem turnedRound_eq {s : State} (hstep : s.seq.pendingStep = none) :
    turnedRound s = stepTaken s.seq.dir.opposite s := by
  rw [stepTaken, ← hstep]
  rfl

/-- The part turning away from a held opening. -/
def turned (d : Dir) (leaf : Nat) (s : State) : State :=
  { s with chans := both .afterReset, seq := turningSeq d leaf (stepTaken d s) }

section
variable {s : State} (hheld : s.seq.state = .held) (hrest : bothAtRest s = true) (hup : s.seq.levels.platenUp = false)
include hheld hrest hup

theorem beginTurn_taken {d : Dir} {leaf : Nat} (h : turnedLeaf s d = some leaf) :
    beginTurn d (stepTaken d s) = turned d leaf s :=
  beginTurn_held (s := stepTaken d s) ((turnedLeaf_congr (s := s) (t := stepTaken d s) rfl rfl d).trans h) hheld hrest
    hup

theorem settledTurn_pending {d : Dir} {leaf : Nat} (hstep : s.seq.pendingStep = some d)
    (h : turnedLeaf s d = some leaf) : settledTurn s = turned d leaf s := by
  simp only [settledTurn, hstep]
  rw [carryStep_turns h, beginTurn_taken hheld hrest hup h]

theorem settledTurn_ahead {leaf : Nat} (hstep : s.seq.pendingStep = none) (hmode : s.seq.mode ≠ .step)
    (hahead : SideAhead s s.seq.dir) (h : turnedLeaf s s.seq.dir = some leaf) :
    settledTurn s = turned s.seq.dir leaf s := by
  rw [settledTurn_decide hstep hmode, decideTurn_ahead hahead, ← beginTurn_taken hheld hrest hup h,
    stepTaken_self hstep rfl]

theorem settledTurn_behind {leaf : Nat} (hstep : s.seq.pendingStep = none) (hmode : s.seq.mode ≠ .step)
    (hnot : ¬SideAhead s s.seq.dir) (hback : SideAhead s s.seq.dir.opposite)
    (h : turnedLeaf s s.seq.dir.opposite = some leaf) : settledTurn s = turned s.seq.dir.opposite leaf s := by
  rw [settledTurn_decide hstep hmode, decideTurn_behind hnot hback, turnedRound_eq hstep,
    beginTurn_taken hheld hrest hup h]

end

theorem settledTurn_impossible {s : State} {d : Dir} (hstep : s.seq.pendingStep = some d)
    (h : turnedLeaf s d = none) : settledTurn s = s.setSeq { s.seq with pendingStep := none } := by
  simp only [settledTurn, hstep]
  have hnone : turnedLeaf (s.setSeq { s.seq with pendingStep := none }) d = none :=
    (turnedLeaf_congr (s := s) (t := s.setSeq { s.seq with pendingStep := none }) rfl rfl d).trans h
  exact if_neg (by rw [hnone]; exact nofun)

theorem settledTurn_over {s : State} (hscan : s.col.volState = .scanning) (hrest : bothAtRest s = true)
    (hstep : s.seq.pendingStep = none) (hmode : s.seq.mode ≠ .step) (hnot : ¬SideAhead s s.seq.dir)
    (hback : ¬SideAhead s s.seq.dir.opposite) : settledTurn s = volumeEnded s := by
  rw [settledTurn_decide hstep hmode, decideTurn_over hscan hrest hnot hback]

/-! ### The hold granted on an opening with nothing PENDING in view -/

/-- The opening settled as the hold is granted, OPENING_DONE raised. -/
def settledAt (s : State) : State := openingDone (grantHold s)

theorem inView_grantHold (s : State) (b : Side) : inView (grantHold s) b = inView s b :=
  inView_congr (s := s) (t := grantHold s) rfl rfl rfl rfl rfl b

theorem noneInViewPending_grantHold (s : State) : noneInViewPending (grantHold s) = noneInViewPending s :=
  noneInViewPending_congr (s := s) (t := grantHold s) rfl (inView_grantHold s)

theorem react_grantHold_dark {s : State} (hheld : s.seq.state = .held) (hscan : s.col.volState = .scanning)
    (hpause : s.seq.pendingPause = none) (hview : noneInViewPending s = false) (hdark : captureAllowed s = false) :
    react (grantHold s) = grantHold s := by
  have hsettled : isSettled (grantHold s) = false := by
    simp [isSettled, (noneInViewPending_grantHold s).trans hview]
  rw [react_held (s := grantHold s) (offerBoth_dark (by exact hdark)) hheld hscan,
    reactHeld_unsettled (s := grantHold s) rfl hsettled hpause rfl]

theorem react_grantHold_settled {s : State} (hheld : s.seq.state = .held) (hscan : s.col.volState = .scanning)
    (hpause : s.seq.pendingPause = none) (hview : ∀ b x, inView s b = some x → isPending s x = false)
    (hstill : ∀ b, (s.chan b).state = .done ∨ ((s.chan b).state = .idle ∧ (s.chan b).target = none)) :
    react (grantHold s) = settledFold (settledAt s) := by
  have hnotAt (b : Side) : ¬OfferedAt (grantHold s) b := by
    rintro ⟨_, ⟨hidle, htarget⟩ | ⟨x, hx, hpending⟩⟩
    · exact (target_of_still (s := s) (hstill b)).elim (absurd hidle) (absurd · htarget)
    · have hnone : isPending s x = false := hview b x ((inView_grantHold s b).symm.trans hx)
      exact absurd (hpending.symm.trans hnone) nofun
  have hnone : noneInViewPending s = true :=
    (noneInViewPending_iff s).2 fun b => Option.filter_eq_none_iff.2 fun x hx => by simp [hview b x hx]
  have hsettled : isSettled (grantHold s) = true := (isSettled_iff _).2
    ⟨hheld, hscan, rfl, bothAtRest_of_still (s := s) hstill, (noneInViewPending_grantHold s).trans hnone⟩
  rw [react_held (s := grantHold s) (offerBoth_unoffered fun ⟨_, _, b, hb⟩ => hnotAt b hb) hheld hscan,
    reactHeld_settled hsettled rfl, settledOpening_noPause (by exact hpause), settledAt]

theorem opens_of {s t : State} (hl : t.col.leaves = s.col.leaves) (hf : t.col.foldouts = s.col.foldouts)
    (hv : t.col.volume = s.col.volume) (hs : t.seq.state = s.seq.state) (hp : t.seq.p = s.seq.p)
    (hk : t.seq.stack = s.seq.stack) (hb : t.seq.stackBank = s.seq.stackBank) (hm : t.seq.foldMark = s.seq.foldMark)
    (hh : t.seq.settledHere = s.seq.settledHere) (b : Side) (g : Nat) : Opens t b g ↔ Opens s b g := by
  simp only [Opens, inView_of hl hv hs hp hk hb, leafAt_of hl, hm, hh, panelsBelow, panelsBelow_of (nests_of hf),
    stateOf_of hl hf]

end Sys2Proof.Machine
end

section
/-! PROOFS of the family `other`: the statement of RESUME from a rest state (02 R48). -/
namespace Sys2Proof.Machine

theorem resumeRule_busy {s : State} (hvol : s.col.volState = .paused) (hmanual : s.seq.manual ≠ none) :
    resumeRule [] s = refuse .busy s := by
  rw [resumeRule, if_neg (by simp [hvol]), if_neg (by simp), if_pos (Option.isSome_iff_ne_none.2 hmanual)]

theorem resumeRule_unresolved {s : State} (hvol : s.col.volState = .paused) (hmanual : s.seq.manual = none)
    (hstate : s.seq.state = .fault) (hnone : (s.seq.fault.map (·.resolution)).getD .none = .none) :
    resumeRule [] s = refuse .wrongState s := by
  rw [resumeRule, if_neg (by simp [hvol]), if_neg (by simp), if_neg (by simp [hmanual]), if_pos ⟨hstate, hnone⟩]

section
variable {s t : State} {tag : Byte} (htakes : takesDirective s = true) (hvol : s.col.volState = .paused)
  (hmanual : s.seq.manual = none) (hfault : s.seq.fault = none) (hstate : s.seq.state ≠ .fault)
include htakes hvol hmanual hfault hstate

theorem exec_resume {disturbed : Bool} (hdisturbed : s.seq.disturbed = disturbed)
    (h : react (resumeRest disturbed (undisturbed (scanningOn s))) = t) :
    exec (.resume tag []) s = .next (giveReply tag 0x22 ⟨.ok, [], t⟩) := by
  refine exec_answers htakes rfl ((resumeRule_ok hvol hmanual fun hs => absurd hs hstate).trans ?_)
  rw [resumeVolume_noFault hfault, hdisturbed, h]

/-- From an undisturbed rest state. -/
theorem exec_resume_on (hdisturbed : s.seq.disturbed = false) (h : react (resumeRest false (scanningOn s)) = t) :
    exec (.resume tag []) s = .next (giveReply tag 0x22 ⟨.ok, [], t⟩) := by
  refine exec_resume htakes hvol hmanual hfault hstate hdisturbed ?_
  rw [undisturbed_self (s := scanningOn s) hdisturbed, h]

/-- From a disturbed rest state into a motion. -/
theorem exec_resume_away (hdisturbed : s.seq.disturbed = true) (h : resumeRest true (undisturbed (scanningOn s)) = t)
    (haway : t.seq.state.isRest = false) : exec (.resume tag []) s = .next (giveReply tag 0x22 ⟨.ok, [], t⟩) :=
  exec_resume htakes hvol hmanual hfault hstate hdisturbed ((congrArg react h).trans (react_away haway))

end

/-- What an opening settled as the hold is granted shows of the state before. -/
theorem opens_settledAt (s : State) (b : Side) (g : Nat) : Opens (settledAt (scanningOn s)) b g ↔ Opens s b g :=
  opens_of (s := s) (t := settledAt (scanningOn s)) rfl rfl rfl rfl rfl rfl rfl rfl rfl b g

theorem sideAhead_settledAt (s : State) (d : Dir) : SideAhead (settledAt (scanningOn s)) d ↔ SideAhead s d :=
  sideAhead_of (s := s) (t := settledAt (scanningOn s)) rfl rfl rfl d

theorem turnedLeaf_settledAt (s : State) (d : Dir) : turnedLeaf (settledAt (scanningOn s)) d = turnedLeaf s d :=
  turnedLeaf_of (s := s) (t := settledAt (scanningOn s)) rfl rfl rfl d

theorem panelsBelow_settledAt (s : State) (g : Nat) : panelsBelow (settledAt (scanningOn s)) g = panelsBelow s g :=
  panelsBelow_of (nests_of (s := s) (t := settledAt (scanningOn s)) rfl) g

theorem stateOf_settledAt (s : State) : stateOf (settledAt (scanningOn s)) = stateOf s :=
  stateOf_of (s := s) (t := settledAt (scanningOn s)) rfl rfl

theorem fieldsOf_settledAt (s : State) (b : Side) :
    fieldsOf (marked b (settledAt (scanningOn s))) = fieldsOf s :=
  fieldsOf_of (s := s) (t := marked b (settledAt (scanningOn s))) rfl rfl

/-- The fold-out re-offered at the settled opening: its REJECTED and WITHHELD panels are PENDING, and no target else
has changed. -/
theorem fieldsOf_reOffered (s : State) (b : Side) (g : Nat) (x : Target) :
    fieldsOf (foldRaised b g (reOffer g (marked b (settledAt (scanningOn s))))) x =
      if x ∈ panelsBelow s g ∧ (stateOf s x = some .rejected ∨ stateOf s x = some .withheld)
      then (fieldsOf s x).map ({ · with state := .pending }) else fieldsOf s x := by
  classical
  have hstate : stateOf (marked b (settledAt (scanningOn s))) = stateOf s := stateOf_settledAt s
  have hbelow : panelsBelow (marked b (settledAt (scanningOn s))) g = panelsBelow s g := panelsBelow_settledAt s g
  have hrefused : Refused (marked b (settledAt (scanningOn s))) x ↔ Refused s x := by rw [Refused, hstate, Refused]
  refine (fieldsOf_col (s := reOffer g (marked b (settledAt (scanningOn s)))) rfl x).trans ?_
  rw [reOffer_eq, fieldsOf_reOfferAll, hbelow, fieldsOf_settledAt]
  exact if_congr (and_congr_right fun _ => hrefused) rfl rfl

theorem inView_scanningOn (s : State) (b : Side) : inView (scanningOn s) b = inView s b :=
  inView_of (s := s) (t := scanningOn s) rfl rfl rfl rfl rfl rfl b

theorem isPending_scanningOn (s : State) : isPending (scanningOn s) = isPending s :=
  isPending_of (s := s) (t := scanningOn s) rfl rfl

theorem noneInViewPending_scanningOn (s : State) : noneInViewPending (scanningOn s) = noneInViewPending s := by
  simp only [noneInViewPending, inView_scanningOn, isPending_scanningOn]

/-- The end of the volume at an opening settled as the hold is granted. -/
theorem volumeEnded_settledAt {s : State} (hpause : s.seq.pendingPause = none) : volumeEnded (settledAt s) =
    raise .paused [3] (raise .volumeEnd [slot s.seq.p] { settledAt s with
      col := { s.col with volState := .paused }
      seq := { s.seq with hold := false, holdGiven := true, waiting := false } }) := by
  have hseq (q : Sequencer) (hq : q.pendingPause = none) :
      ({ q with pendingPause := none, hold := false, holdGiven := true, waiting := false } : Sequencer) =
        { q with hold := false, holdGiven := true, waiting := false } := by
    cases q
    cases hq
    rfl
  rw [← hseq s.seq hpause]
  rfl

/-! ### The settled opening -/

section
variable {s : State} {tag : Byte} (htakes : takesDirective s = true) (hvol : s.col.volState = .paused)
  (hmanual : s.seq.manual = none) (hfault : s.seq.fault = none) (hpause : s.seq.pendingPause = none)
  (hs : s.seq.state = .held) (hundist : s.seq.disturbed = false)
  (hview : ∀ b x, inView s b = some x → isPending s x = false)
  (hstill : ∀ b, (s.chan b).state = .done ∨ ((s.chan b).state = .idle ∧ (s.chan b).target = none))
include htakes hvol hmanual hfault hpause hs hundist hview hstill

theorem exec_resume_settles {t : State} (h : settledFold (settledAt (scanningOn s)) = t) :
    exec (.resume tag []) s = .next (giveReply tag 0x22 ⟨.ok, [], t⟩) := by
  refine exec_resume_on htakes hvol hmanual hfault (hs ▸ nofun) hundist ?_
  rw [resumeRest_grants (s := scanningOn s) (.inl hs)]
  have hview' (b : Side) (x : Target) (hx : inView (scanningOn s) b = some x) : isPending (scanningOn s) x = false :=
    (congrFun (isPending_scanningOn s) x).trans (hview b x ((inView_scanningOn s b).symm.trans hx))
  exact (react_grantHold_settled (s := scanningOn s) hs rfl hpause hview' hstill).trans h

/-- With no fold-out to open the turn is chosen. -/
theorem exec_resume_turn {t : State} (hnone : ∀ b g, ¬Opens s b g)
    (h : settledTurn (settledAt (scanningOn s)) = t) :
    exec (.resume tag []) s = .next (giveReply tag 0x22 ⟨.ok, [], t⟩) := by
  refine exec_resume_settles htakes hvol hmanual hfault hpause hs hundist hview hstill (Eq.trans ?_ h)
  exact settledFold_none fun b => foldoutToOpen_eq_none.2 fun g => mt (opens_settledAt s b g).1 (hnone b g)

/-- A fold-out with no panel to work is passed over. -/
theorem exec_resume_passes {b : Side} {g : Nat} {t : State} (hopens : Opens s b g)
    (hfirst : b = .right → ∀ k, ¬Opens s .left k)
    (hnone : ∀ x ∈ panelsBelow s g, stateOf s x ≠ some .pending ∧ ¬Refused s x)
    (h : settledTurn (marked b (settledAt (scanningOn s))) = t) :
    exec (.resume tag []) s = .next (giveReply tag 0x22 ⟨.ok, [], t⟩) := by
  have hpass : ∀ x ∈ panelsBelow (settledAt (scanningOn s)) g,
      stateOf (settledAt (scanningOn s)) x ≠ some .pending ∧ ¬Refused (settledAt (scanningOn s)) x := by
    simpa only [Refused, panelsBelow_settledAt, stateOf_settledAt] using hnone
  refine exec_resume_settles htakes hvol hmanual hfault hpause hs hundist hview hstill (Eq.trans ?_ h)
  exact settledFold_opens ((opens_settledAt s b g).2 hopens)
    (fun hb k => mt (opens_settledAt s .left k).1 (hfirst hb k)) (openFoldout_passes hpass)

/-- A fold-out with a panel to work is pushed and the platen raised. -/
theorem exec_resume_opens {b : Side} {g : Nat} (hopens : Opens s b g) (hfirst : b = .right → ∀ k, ¬Opens s .left k)
    (hup : s.seq.levels.platenUp = false)
    (hsome : ∃ x ∈ panelsBelow s g, stateOf s x = some .pending ∨ Refused s x) :
    exec (.resume tag []) s = .next (giveReply tag 0x22
      ⟨.ok, [], foldRaised b g (reOffer g (marked b (settledAt (scanningOn s))))⟩) := by
  have hwork : ∃ x ∈ panelsBelow (settledAt (scanningOn s)) g,
      stateOf (settledAt (scanningOn s)) x = some .pending ∨ Refused (settledAt (scanningOn s)) x := by
    simpa only [Refused, panelsBelow_settledAt, stateOf_settledAt] using hsome
  refine exec_resume_settles htakes hvol hmanual hfault hpause hs hundist hview hstill ?_
  exact settledFold_opens ((opens_settledAt s b g).2 hopens)
    (fun hb k => mt (opens_settledAt s .left k).1 (hfirst hb k))
    (openFoldout_raises (s := settledAt (scanningOn s)) hs (bothAtRest_of_still (s := s) hstill) hup hwork)

end

/-- Settles O18. -/
theorem resumeContinuesFromItsRestState : Obligations.ResumeContinuesFromItsRestState := by
  intro tag s htakes hvol
  refine ⟨fun h => exec_answers htakes rfl (resumeRule_busy hvol h),
    fun hmanual hstate hnone => exec_answers htakes rfl (resumeRule_unresolved hvol hmanual hstate hnone),
    fun hmanual hfault hpause => ⟨fun h => ?_, fun hs hundist hdark hview => ?_, fun hs hdist hrest hcontact => ?_,
      fun hs hdist hup => ?_, fun hs hundist => ⟨?_, fun hdark => ?_⟩, fun e rest hs hdist hstack hrest hup => ?_,
      fun hs hundist hview hstill hup => ?_⟩⟩
  · have hstate : s.seq.state ≠ .fault := by rcases h with h | ⟨h, _⟩ <;> simp [h]
    have hstands := resumeRest_stands (s := undisturbed (scanningOn s)) h
    refine exec_resume htakes hvol hmanual hfault hstate rfl ((congrArg react hstands).trans ?_)
    have hne : s.seq.state ≠ .held ∧ s.seq.state ≠ .panelHeld := by rcases h with h | ⟨h, _⟩ <;> simp [h]
    exact react_quiet (s := undisturbed (scanningOn s)) hne.1 hne.2 (.inl hpause)
  · refine exec_resume_on htakes hvol hmanual hfault (hs ▸ nofun) hundist ?_
    rw [resumeRest_grants (s := scanningOn s) (.inl hs)]
    exact react_grantHold_dark (s := scanningOn s) hs rfl hpause ((noneInViewPending_scanningOn s).trans hview) hdark
  · have hpresents := (resumeRest_presents (s := undisturbed (scanningOn s)) hs).trans
      (present_again (s := undisturbed (scanningOn s)) hs hrest hcontact)
    exact exec_resume_away htakes hvol hmanual hfault (hs ▸ nofun) hdist hpresents rfl
  · have hraises := (resumeRest_raises (s := undisturbed (scanningOn s)) hs).trans
      (foldRaise_again (s := undisturbed (scanningOn s)) hs hup)
    have hbase (q : Sequencer) : reseat q (undisturbed (scanningOn s)) = reseat q (scanningOn s) :=
      reseat_setSeq rfl rfl rfl rfl
    exact exec_resume_away htakes hvol hmanual hfault (hs ▸ nofun) hdist (hraises.trans (hbase _)) rfl
  · exact exec_resume_on htakes hvol hmanual hfault (hs ▸ nofun) hundist
      (congrArg react (resumeRest_grants (s := scanningOn s) (.inr hs)))
  · have hdark' : ¬Offered (grantHold (scanningOn s)) := fun h => absurd (hdark.symm.trans h.2.1) nofun
    exact (react_panelHeld (s := grantHold (scanningOn s)) rfl hs hdark').trans
      (reactPanel_dark (s := grantHold (scanningOn s)) hpause hdark rfl)
  · have hraises := (resumeRest_raisesPanel (s := undisturbed (scanningOn s)) hs).trans
      (foldRaise_panel (s := undisturbed (scanningOn s)) hs hstack hrest hup)
    have hbase (q : Sequencer) : reseat q { undisturbed (scanningOn s) with chans := both .afterReset } =
        reseat q { scanningOn s with chans := both .afterReset } :=
      reseat_setSeq (q := { s.seq with disturbed := false }) (s := { scanningOn s with chans := both .afterReset })
        rfl rfl rfl rfl
    exact exec_resume_away htakes hvol hmanual hfault (hs ▸ nofun) hdist (hraises.trans (hbase _)) rfl
  · have hrest : bothAtRest s = true := bothAtRest_of_still hstill
    have turns {u : State} (hnone : ∀ b g, ¬Opens s b g) (h : settledTurn (settledAt (scanningOn s)) = u) :
        exec (.resume tag []) s = .next (giveReply tag 0x22 ⟨.ok, [], u⟩) :=
      exec_resume_turn htakes hvol hmanual hfault hpause hs hundist hview hstill hnone h
    refine ⟨fun b g hopens hfirst => ⟨fun hsome => ?_, fun hnone hmode hstep => ?_⟩, fun hnone =>
      ⟨fun d hstep => ⟨fun hleaf => ?_, fun leaf hleaf => ?_⟩, fun hstep hmode => ?_, fun hstep hmode =>
        ⟨fun leaf hahead hleaf => ?_, fun leaf hnot hback hleaf => ?_, fun hnot hback => ?_⟩⟩⟩
    · refine ⟨_, exec_resume_opens htakes hvol hmanual hfault hpause hs hundist hview hstill hopens hfirst hup hsome,
        foldRaised_of_alone (panelsAlone_reOffer g _) b g, fieldsOf_reOffered s b g⟩
    · refine exec_resume_passes htakes hvol hmanual hfault hpause hs hundist hview hstill hopens hfirst ?_ ?_
      · exact fun x hx => ⟨(hnone x hx).1, fun h => h.elim (hnone x hx).2.1 (hnone x hx).2.2⟩
      · exact settledTurn_step (s := marked b (settledAt (scanningOn s))) hstep hmode
    · exact turns hnone (settledTurn_impossible (s := settledAt (scanningOn s)) hstep
        ((turnedLeaf_settledAt s d).trans hleaf))
    · exact turns hnone (settledTurn_pending (s := settledAt (scanningOn s)) hs hrest hup hstep
        ((turnedLeaf_settledAt s d).trans hleaf))
    · exact turns hnone (settledTurn_step (s := settledAt (scanningOn s)) hstep hmode)
    · exact turns hnone (settledTurn_ahead (s := settledAt (scanningOn s)) hs hrest hup hstep hmode
        ((sideAhead_settledAt s _).2 hahead) ((turnedLeaf_settledAt s _).trans hleaf))
    · exact turns hnone (settledTurn_behind (s := settledAt (scanningOn s)) hs hrest hup hstep hmode
        (mt (sideAhead_settledAt s _).1 hnot) ((sideAhead_settledAt s _).2 hback)
        ((turnedLeaf_settledAt s _).trans hleaf))
    · have hover := settledTurn_over (s := settledAt (scanningOn s)) rfl hrest hstep hmode
        (mt (sideAhead_settledAt s _).1 hnot) (mt (sideAhead_settledAt s _).1 hback)
      exact turns hnone (hover.trans (volumeEnded_settledAt (s := scanningOn s) hpause))

end Sys2Proof.Machine
end

section
/-! PROOFS of the family `other`: the settling of a list of targets (07 R138, R144) and SKIP LEAF (01 R19). -/
namespace Sys2Proof.Machine

/-! ### What a settling leaves alone -/

/-- Two states that differ in the tally's records, its counts, the retake list and the settled-here marks alone. -/
def TallyAlone (s t : State) : Prop := t = { s with
  col := { s.col with leaves := t.col.leaves, foldouts := t.col.foldouts }
  tally := { s.tally with
    sideCounts := t.tally.sideCounts, panelCounts := t.tally.panelCounts, retakes := t.tally.retakes }
  seq := { s.seq with settledHere := t.seq.settledHere } }

theorem tallyAlone_trans {s t u : State} (h : TallyAlone s t) (k : TallyAlone t u) : TallyAlone s u := by
  rw [TallyAlone] at h k ⊢
  rw [h] at k
  exact k

theorem tallyAlone_changeState (x : Target) (a b : TState) (s : State) : TallyAlone s (changeState x a b s) := by
  cases x with
  | side leaf f => rfl
  | panel f n =>
    simp only [TallyAlone, changeState, moveCount, modifyFields]
    split <;> rfl

theorem tallyAlone_dropRetake (x : Target) (s : State) : TallyAlone s (dropRetake x s) := by cases x <;> rfl

theorem tallyAlone_markSettledHere (x : Target) (s : State) : TallyAlone s (markSettledHere x s) := by
  rw [TallyAlone, markSettledHere]
  split <;> rfl

theorem tallyAlone_settle (x : Target) (a : TState) (s : State) : TallyAlone s (settle x a s) := by
  rw [settle]
  split
  · exact tallyAlone_trans (tallyAlone_trans (tallyAlone_changeState ..) (tallyAlone_dropRetake ..))
      (tallyAlone_markSettledHere ..)
  · rfl

theorem tallyAlone_settleAll (xs : List Target) (a : TState) (s : State) : TallyAlone s (settleAll xs a s) := by
  induction xs generalizing s with
  | nil => rfl
  | cons x xs ih => exact tallyAlone_trans (tallyAlone_settle x a s) (ih _)

/-! ### What a settling does to the records -/

theorem markSettledHere_tables (x : Target) (s : State) :
    (markSettledHere x s).col = s.col ∧ (markSettledHere x s).tally = s.tally := by
  rw [markSettledHere]
  split <;> exact ⟨rfl, rfl⟩

theorem settle_pending {x : Target} {a : TState} {s : State} (h : isPending s x = true) :
    settle x a s = markSettledHere x (dropRetake x (changeState x .pending a s)) := if_pos h

theorem settle_kept {x : Target} {a : TState} {s : State} (h : isPending s x = false) : settle x a s = s :=
  if_neg (Bool.eq_false_iff.1 h)

theorem fieldsOf_settle (x u : Target) (a : TState) (s : State) : fieldsOf (settle x a s) u =
    if u = x ∧ isPending s u = true then (fieldsOf s u).map ({ · with state := a }) else fieldsOf s u := by
  cases h : isPending s x with
  | true =>
    have hcol : (settle x a s).col = (changeState x .pending a s).col := by
      rw [settle_pending h, (markSettledHere_tables ..).1, (dropRetake_tally ..).1]
    rw [fieldsOf_col hcol, fieldsOf_changeState]
    by_cases hu : u = x
    · rw [if_pos hu, if_pos ⟨hu, hu ▸ h⟩, hu]
    · rw [if_neg hu, if_neg fun k => hu k.1]
  | false =>
    rw [settle_kept h, if_neg]
    rintro ⟨rfl, k⟩
    exact absurd (h.symm.trans k) nofun

/-- What settles is no longer PENDING, and nothing else changes its state. -/
theorem isPending_settle {x u : Target} {a : TState} {s : State} (ha : a ≠ .pending) :
    isPending (settle x a s) u = true ↔ isPending s u = true ∧ u ≠ x := by
  simp only [isPending, stateOf, fieldsOf_settle, beq_iff_eq]
  by_cases hu : u = x ∧ (Option.map (·.state) (fieldsOf s u)) = some .pending
  · rw [if_pos hu]
    simp only [Option.map_map, hu.1, ne_eq, not_true, and_false, iff_false]
    cases fieldsOf s x <;> simp [ha]
  · rw [if_neg hu]
    exact ⟨fun h => ⟨h, fun k => hu ⟨k, h⟩⟩, fun h => h.1⟩

theorem fieldsOf_settleAll {a : TState} (ha : a ≠ .pending) (xs : List Target) (u : Target) (s : State) :
    fieldsOf (settleAll xs a s) u =
      if u ∈ xs ∧ isPending s u = true then (fieldsOf s u).map ({ · with state := a }) else fieldsOf s u := by
  induction xs generalizing s with
  | nil => exact (if_neg fun h => nomatch h.1).symm
  | cons x xs ih =>
    rw [settleAll_cons, ih, fieldsOf_settle]
    simp only [isPending_settle ha, List.mem_cons]
    by_cases hu : u = x <;> by_cases hp : isPending s u = true <;> by_cases hx : u ∈ xs <;> simp [hu, hp, hx]

theorem mem_settle_retakes (x : Target) (a : TState) (s : State) (e : Nat × Face) :
    e ∈ (settle x a s).tally.retakes ↔ e ∈ s.tally.retakes ∧ ¬(.side e.1 e.2 = x ∧ isPending s x = true) := by
  cases h : isPending s x with
  | true =>
    rw [settle_pending h, (markSettledHere_tables ..).2]
    cases x with
    | side leaf f =>
      obtain ⟨i, g⟩ := e
      simp only [dropRetake, List.mem_filter, changeState_retakes, bne_iff_ne, ne_eq, and_true, Prod.mk.injEq,
        Target.side.injEq]
    | panel f n => simp [dropRetake, changeState_retakes]
  | false => simp [settle_kept h]

theorem mem_settleAll_retakes {a : TState} (ha : a ≠ .pending) (xs : List Target) (s : State) (e : Nat × Face) :
    e ∈ (settleAll xs a s).tally.retakes ↔
      e ∈ s.tally.retakes ∧ ¬(.side e.1 e.2 ∈ xs ∧ isPending s (.side e.1 e.2) = true) := by
  induction xs generalizing s with
  | nil => simp [settleAll]
  | cons x xs ih =>
    rw [settleAll_cons, ih, mem_settle_retakes, isPending_settle ha, List.mem_cons]
    by_cases hx : Target.side e.1 e.2 = x
    · subst hx
      simp
    · simp [hx]

/-! ### SKIP LEAF (01 R19) -/

theorem skipRule_ok {ws : List Slot} {s : State} {i : Nat} (hvol : s.col.volState = .ready ∨ s.col.volState = .paused)
    (hlen : ws.length = 5) (hleaf : findLeaf s ws = .ok i) : skipRule ws s =
      ⟨.ok, [slot ((targetsOfLeaf s i).countP (isPending s))], settleAll (targetsOfLeaf s i) .skipped s⟩ := by
  rw [skipRule, if_neg (by rcases hvol with h | h <;> simp [h]), if_neg (by simp [hlen])]
  simp only [hleaf]

/-- Settles O14. -/
theorem skipLeafSkipsItsPendingTargets : Obligations.SkipLeafSkipsItsPendingTargets := by
  intro tag ws s i htakes hvol hlen hleaf
  have hskipped : TState.skipped ≠ .pending := nofun
  have halone : TallyAlone s (settleAll (targetsOfLeaf s i) .skipped s) := tallyAlone_settleAll ..
  refine ⟨settleAll (targetsOfLeaf s i) .skipped s, exec_answers htakes rfl (skipRule_ok hvol hlen hleaf), ?_⟩
  exact ⟨halone, fun x => fieldsOf_settleAll hskipped _ x s, fun e => mem_settleAll_retakes hskipped _ s e⟩

end Sys2Proof.Machine
end

section
/-! PROOFS of the family `other`: the sequencer stopped (02 R51, 07 R150) and DISCARD VOLUME (01 R20, R21). -/
namespace Sys2Proof.Machine

/-! ### The visits ended and the sequencer stopped -/

/-- A channel as the end of a visit leaves it (05 R113). -/
def Channel.visitEnded (c : Channel) : Channel := if c.atRest then .afterReset else c

theorem endVisit_eq (b : Side) (s : State) : endVisit b s = s.setChan b (s.chan b).visitEnded := by
  rw [endVisit, Channel.visitEnded]
  split
  · rfl
  · exact (State.setChan_chan ..).symm

theorem endVisits_eq (s : State) :
    endVisits s = { s with chans := ⟨s.chans.left.visitEnded, s.chans.right.visitEnded⟩ } := by
  rw [endVisits, endVisit_eq, endVisit_eq]
  rfl

/-- The channels as the sequencer's leaving for STOPPED leaves them (02 R35). -/
def visitsLeft (s : State) : Both Channel :=
  if s.seq.state = .held ∨ s.seq.state = .panelHeld then ⟨s.chans.left.visitEnded, s.chans.right.visitEnded⟩
  else s.chans

/-- The sequencer STOPPED, every drive braked. -/
def stoppedSeq (q : Sequencer) : Sequencer :=
  { q with
    state := .stopped, stack := [], stackBank := none, kind := none, turn := none, pendingPause := none
    pendingStep := none, foldMark := both false, settledHere := both false, fault := none, disturbed := false
    hold := false, holdGiven := false, waiting := false, motionLeft := 0
    outputs := { q.outputs with arm := .brake, puff := false, platen := .off, lifts := both .off } }

theorem stopSequencer_eq (s : State) : stopSequencer s =
    { s with seq := stoppedSeq s.seq, lamps := { s.lamps with cut := both false }, chans := visitsLeft s } := by
  have hleaving : ((s.seq.state == .held || s.seq.state == .panelHeld) && s.seq.state != .stopped) =
      decide (s.seq.state = .held ∨ s.seq.state = .panelHeld) := by cases s.seq.state <;> rfl
  simp only [stopSequencer, goto, hleaving, visitsLeft, decide_eq_true_eq]
  split
  · rw [endVisits_eq]
    rfl
  · rfl

/-! ### The channels and the ports at DISCARD VOLUME (05 R112, 06 R132) -/

/-- A port as its channel's discard leaves it. -/
def headerEnded (c : Channel) (p : Port) : Port :=
  match c.state with
  | .idle | .done => p
  | .arming | .gating => p.takeBack
  | .firing | .awaiting => p.mapArmed .abandon

/-- The running strobes without that of a channel in FIRING. -/
def strobeEnded (b : Side) (c : Channel) (x : Both (Option Strobe)) : Both (Option Strobe) :=
  if c.state = .firing then x.set b none else x

theorem discardChannel_eq (b : Side) (s : State) : discardChannel b s = { s with
    chans := s.chans.set b .afterReset
    ports := s.ports.set b (headerEnded (s.chan b) (s.port b))
    lamps := { s.lamps with strobe := strobeEnded b (s.chan b) s.lamps.strobe } } := by
  have hport : s.ports.set b (s.port b) = s.ports := congrArg State.ports (State.setPort_port s b)
  rw [discardChannel, headerEnded, strobeEnded]
  cases hc : (s.chan b).state with
  | idle | done => rw [hport]; rfl
  | arming | gating | firing | awaiting => rfl

theorem Port.takeBack_queue (p : Port) : p.takeBack.queue = p.queue ∧ p.takeBack.frame = p.frame := by
  rw [Port.takeBack]
  split
  · exact ⟨rfl, rfl⟩
  · exact ⟨rfl, rfl⟩
  · split <;> exact ⟨rfl, rfl⟩

theorem headerEnded_queue (c : Channel) (p : Port) :
    (headerEnded c p).queue = p.queue ∧ (headerEnded c p).frame = p.frame := by
  cases hc : c.state with
  | idle | done | firing | awaiting => rw [headerEnded, hc]; exact ⟨rfl, rfl⟩
  | arming | gating => rw [headerEnded, hc]; exact p.takeBack_queue

theorem Port.discard_armed (p : Port) :
    p.discard.armed = none ∨ p.discard.armed.map (·.status) = some .abandoned := by
  simp only [Port.discard, Port.mapArmed]
  cases p.armed with
  | none => exact .inl rfl
  | some h => exact .inr rfl

/-- A port at the end of a volume: its queue and its frame stand. -/
def portEnded (s : State) (b : Side) : Port := (headerEnded (s.chan b) (s.port b)).discard

/-- The running strobes at the end of a volume. -/
def strobesEnded (s : State) : Both (Option Strobe) :=
  strobeEnded .right s.chans.right (strobeEnded .left s.chans.left s.lamps.strobe)

theorem strobesEnded_firing {s : State} {b : Side} (h : (s.chan b).state = .firing) : (strobesEnded s).get b = none := by
  cases b with
  | left =>
    have hl : s.chans.left.state = .firing := h
    simp only [strobesEnded, strobeEnded, hl, if_true]
    split <;> rfl
  | right =>
    have hr : s.chans.right.state = .firing := h
    simp only [strobesEnded, strobeEnded, hr, if_true]
    rfl

/-! ### The sequencer at DISCARD VOLUME (01 R21) -/

/-- A manual motion ended in the sequencer. -/
def manualStopped (q : Sequencer) : Sequencer :=
  match q.manual with
  | some m => { q with manual := none, manualLeft := 0, outputs := haltManual m q.outputs }
  | none => q

theorem endManual_eq (s : State) : endManual s = s.setSeq (manualStopped s.seq) := by
  cases h : s.seq.manual <;> simp only [endManual, manualStopped, h]
  rfl

theorem manualStopped_manual (q : Sequencer) : (manualStopped q).manual = none := by
  rw [manualStopped]
  split
  · rfl
  · assumption

/-- A halted motion leaves the vacuum valve, and every drive once it is braked too. -/
theorem manualStopped_outputs (q : Sequencer) : (manualStopped q).outputs.vacuum = q.outputs.vacuum ∧
    (manualStopped q).outputs.brakeAll = q.outputs.brakeAll := by
  rw [manualStopped]
  split
  next m _ => cases m <;> exact ⟨rfl, rfl⟩
  · exact ⟨rfl, rfl⟩

/-- The sequencer as DISCARD VOLUME leaves it: STOPPED where the volume was SCANNING or PAUSED. -/
def discardedSeq (s : State) : Sequencer :=
  if s.col.volState = .scanning ∨ s.col.volState = .paused then stoppedSeq (manualStopped s.seq)
  else { manualStopped s.seq with
    fault := none, disturbed := false, foldMark := both false, settledHere := both false }

/-- The preview cuts as DISCARD VOLUME leaves them. -/
def discardedCut (s : State) : Both Bool :=
  if s.col.volState = .scanning ∨ s.col.volState = .paused then both false else s.lamps.cut

/-- The volume's end in every block. -/
def discarded (s : State) : State :=
  { s with
    col := { Collation.blank with serial := s.col.serial }, tally := .blank, dose := { s.dose with volDose := 0 }
    seq := discardedSeq s, chans := both .afterReset, ports := ⟨portEnded s .left, portEnded s .right⟩
    lamps := { s.lamps with strobe := strobesEnded s, cut := discardedCut s } }

/-- The exposure channels and the ports at the volume's end, the sequencer not yet stopped. -/
def blocksEnded (s : State) : State :=
  { s with
    chans := both .afterReset, ports := ⟨portEnded s .left, portEnded s .right⟩
    lamps := { s.lamps with strobe := strobesEnded s } }

theorem discardPorts_eq (s : State) :
    discardPorts (discardChannel .right (discardChannel .left s)) = blocksEnded s := by
  rw [discardChannel_eq, discardChannel_eq]
  rfl

theorem discardSequencer_eq {s : State} (hchans : s.chans = both .afterReset) : discardSequencer s = { s with
    seq := if s.col.volState = .scanning ∨ s.col.volState = .paused then stoppedSeq s.seq
      else { s.seq with fault := none, disturbed := false, foldMark := both false, settledHere := both false }
    lamps := { s.lamps with cut := discardedCut s } } := by
  have hvisits : visitsLeft s = s.chans := by
    rw [visitsLeft, hchans]
    split <;> rfl
  rw [discardSequencer, discardedCut]
  split
  · rw [stopSequencer_eq, hvisits]
  · rfl

theorem discardVolume_eq (s : State) : discardVolume s = discarded s := by
  have hseq := discardSequencer_eq (s := (blocksEnded s).setSeq (manualStopped s.seq)) rfl
  rw [discardVolume, discardPorts_eq, endManual_eq]
  exact congrArg endVolume hseq

/-- Settles O15. -/
theorem discardVolumeEndsTheVolume : Obligations.DiscardVolumeEndsTheVolume := by
  intro tag s htakes hvol
  have hrule : discardRule [] s = ⟨.ok, [], discarded s⟩ := by
    rw [discardRule, if_neg hvol, if_neg (by simp), discardVolume_eq]
  obtain ⟨hvacuum, hbrakes⟩ := manualStopped_outputs s.seq
  refine ⟨discarded s, exec_answers htakes rfl hrule, rfl, ?_, ?_, ?_, ?_, fun hunder => ?_, rfl, fun b => ?_⟩
  · rw [discarded, discardedSeq]
    split <;> exact hvacuum
  · rw [discarded, discardedSeq]
    split <;> exact manualStopped_manual s.seq
  · rw [discarded, discardedSeq]
    split <;> rfl
  · rw [discarded, discardedSeq]
    split <;> rfl
  · rw [discarded, discardedSeq, if_pos hunder, discardedCut, if_pos hunder]
    exact ⟨rfl, rfl, rfl, rfl, hbrakes, rfl⟩
  · have hport : (discarded s).port b = portEnded s b := by cases b <;> rfl
    obtain ⟨hqueue, hframe⟩ := headerEnded_queue (s.chan b) (s.port b)
    rw [hport]
    exact ⟨hqueue, rfl, hframe, Port.discard_armed _, strobesEnded_firing⟩

end Sys2Proof.Machine
end

section
/-! PROOFS of the family `other`: RETAKE (07 R143). -/
namespace Sys2Proof.Machine

/-! ### One bank offered what it sees, the other nothing -/

theorem offeredAt_takenUp {b : Side} {x : Target} {s : State} (h : ¬OfferedAt s b.other) :
    ¬OfferedAt (takenUp b x s) b.other := by
  have hchan : (takenUp b x s).chan b.other = s.chan b.other := by cases b <;> rfl
  have hview : inView (takenUp b x s) b.other = inView s b.other :=
    inView_congr (s := s) (t := takenUp b x s) rfl rfl rfl rfl rfl b.other
  rw [OfferedAt, hchan, hview]
  exact h

theorem offerBoth_takes {b : Side} {x : Target} {s : State} (htake : offer b s = takenUp b x s)
    (hother : ¬OfferedAt s b.other) : offerBoth s = takenUp b x s := by
  have htaken := offeredAt_takenUp (x := x) hother
  cases b with
  | left =>
    rw [offerBoth, htake]
    exact offer_unoffered htaken
  | right => exact (congrArg (offer .right) (offer_unoffered hother)).trans htake

/-- In HELD a target taken up at one bank unsettles the opening. -/
theorem react_held_takes {b : Side} {x : Target} {s : State} (hheld : s.seq.state = .held)
    (hscan : s.col.volState = .scanning) (hhold : s.seq.hold = true) (htake : offer b s = takenUp b x s)
    (hother : ¬OfferedAt s b.other) : react s = (takenUp b x s).setSeq { s.seq with waiting := false } := by
  have hrest : bothAtRest (takenUp b x s) = false := by
    cases b <;> simp [bothAtRest, takenUp, gatingFor, Both.set, Channel.atRest]
  have hsettled : isSettled (takenUp b x s) = false := by simp [isSettled, hrest]
  rw [react_held (offerBoth_takes htake hother) hheld hscan, reactHeld,
    show (takenUp b x s).seq.hold = true from hhold, hsettled]
  exact takePause_waits (t := (takenUp b x s).setSeq { s.seq with waiting := false }) hrest

/-- What a bank takes up depends on the channel, the port, the volume's serial and the recipe. -/
theorem takenUp_of {s t : State} {b : Side} {x : Target} (hchans : t.chans = s.chans) (hports : t.ports = s.ports)
    (hserial : t.col.serial = s.col.serial) (hclass : classOf t x = classOf s x) (hrecipe : recipeOf t x = recipeOf s x) :
    takenUp b x t = { t with
      chans := s.chans.set b (gatingFor x s), ports := s.ports.set b (armedFor b x s) } := by
  rw [takenUp, gatingFor, armedFor, State.port, hchans, hports, hserial, hclass, hrecipe, gatingFor, armedFor, State.port]

/-! ### The side asked for again -/

section
variable {s : State} {i : Nat} {f : Face} {q : TallyFields} (hfields : fieldsOf s (.side i f) = some q)
  (hsettled : q.state ≠ .pending)
include hfields

theorem stateOf_fields : stateOf s (.side i f) = some q.state := by rw [stateOf, hfields]; rfl

include hsettled

theorem unsettle_side : unsettle (.side i f) s = changeState (.side i f) q.state .pending s :=
  unsettle_of_settled (stateOf_fields hfields) hsettled

theorem retakeSide_alone : retakeSide i f s = { s with
    col := { s.col with leaves := (retakeSide i f s).col.leaves }
    tally := { s.tally with
      sideCounts := (retakeSide i f s).tally.sideCounts, retakes := (retakeSide i f s).tally.retakes } } := by
  rw [retakeSide, unsettle_side hfields hsettled]
  rfl

theorem retakeSide_col : (retakeSide i f s).col = (changeState (.side i f) q.state .pending s).col := by
  rw [retakeSide, unsettle_side hfields hsettled]

theorem retakeSide_retakes : (retakeSide i f s).tally.retakes = insertRetake (i, f) s.tally.retakes := by
  rw [retakeSide, unsettle_side hfields hsettled]
  rfl

theorem retakeSide_counts :
    (retakeSide i f s).tally.sideCounts = (s.tally.sideCounts.sub1 q.state).add1 .pending := by
  rw [retakeSide, unsettle_side hfields hsettled]
  rfl

theorem fieldsOf_retakeSide (x : Target) : fieldsOf (retakeSide i f s) x =
    if x = .side i f then some { q with state := .pending } else fieldsOf s x := by
  rw [fieldsOf_col (retakeSide_col hfields hsettled), fieldsOf_changeState, hfields]
  rfl

theorem present_retakeSide :
    present (retakeSide i f s) = present s ∧ leafCount (retakeSide i f s) = leafCount s := by
  have hcol := retakeSide_col hfields hsettled
  obtain ⟨hpresent, hcount⟩ := present_changeState (.side i f) q.state .pending s
  exact ⟨(present_of (congrArg _ hcol) (congrArg _ hcol)).trans hpresent, (leafCount_congr (congrArg _ hcol)).trans hcount⟩

theorem openingOf_retakeSide (leaf : Nat) (g : Face) :
    openingOf (retakeSide i f s) leaf g = openingOf s leaf g := by
  obtain ⟨hpresent, hcount⟩ := present_retakeSide hfields hsettled
  cases g with
  | recto => rfl
  | verso => exact presentAfter_of hpresent hcount leaf

theorem inView_retakeSide (b : Side) : inView (retakeSide i f s) b = inView s b := by
  have hcol := retakeSide_col hfields hsettled
  have hvolume : (retakeSide i f s).col.volume = s.col.volume := by rw [retakeSide_alone hfields hsettled]
  have habsent (j : Nat) : (leafAt (retakeSide i f s) j).absent = (leafAt s j).absent := by
    rw [leafAt_of (congrArg Collation.leaves hcol)]
    exact absent_modifyFields ..
  exact inView_of_absent hvolume habsent (by rw [retakeSide_alone hfields hsettled]) b

theorem classOf_retakeSide (x : Target) : classOf (retakeSide i f s) x = classOf s x := by
  have hchanged : classOf (changeState (.side i f) q.state .pending s) x = classOf s x := by
    rw [changeState]
    exact classOf_modifyFields ..
  have hcol := retakeSide_col hfields hsettled
  cases x with
  | side j g => rw [← hchanged, classOf, classOf, leafAt_of (congrArg _ hcol)]
  | panel j n => rw [← hchanged, classOf, classOf, panelsOf_congr hcol]

theorem isPending_retakeSide (x : Target) :
    isPending (retakeSide i f s) x = if x = .side i f then true else isPending s x := by
  rw [isPending, stateOf, fieldsOf_retakeSide hfields hsettled]
  split <;> rfl

/-- A side asked for again in view of a held opening is taken up as a new visit (05 R96, R98). -/
theorem react_retakeSide {b : Side} (hscan : s.col.volState = .scanning) (hheld : s.seq.state = .held)
    (hhold : s.seq.hold = true) (hopen : captureAllowed s = true) (hview : inView s b = some (.side i f))
    (hport : (s.port b).state = .idle)
    (hstill : (s.chan b).state = .done ∨ ((s.chan b).state = .idle ∧ (s.chan b).target = none))
    (hother : (s.chan b.other).atRest = false ∨ ((s.chan b.other).state = .done ∧
      ∀ x, inView s b.other = some x → isPending s x = false))
    (hshot : 1 ≤ (recipeOf s (.side i f)).shotCount) : react (retakeSide i f s) =
      (takenUp b (.side i f) (retakeSide i f s)).setSeq { s.seq with waiting := false } := by
  have halone := retakeSide_alone hfields hsettled
  have hpending := isPending_retakeSide hfields hsettled
  have hviews := inView_retakeSide hfields hsettled
  have hrecipe : recipeOf (retakeSide i f s) (.side i f) = recipeOf s (.side i f) := by
    rw [recipeOf, classOf_retakeSide hfields hsettled, halone, recipeOf]
  generalize retakeSide i f s = t at *
  have hchan (c : Side) : t.chan c = s.chan c := by rw [halone]; rfl
  have hport' : (t.port b).state = .idle := by rw [halone]; exact hport
  have hseq : t.seq = s.seq := by rw [halone]
  have hscan' : t.col.volState = .scanning := by rw [halone]; exact hscan
  have hopen' : captureAllowed t = true := by rw [halone]; exact hopen
  have hisHeld : isHeld t = true := by simp [isHeld, hseq, hheld, hhold, hscan']
  have htake : offer b t = takenUp b (.side i f) t :=
    (offer_still hisHeld hopen' (by rw [hchan]; exact hstill) ((hviews b).trans hview)
      ((hpending _).trans (if_pos rfl))).trans (takeUp_eq (by rw [hrecipe]; exact hshot) hport')
  have hnot : ¬OfferedAt t b.other := by
    rcases hother with hwork | ⟨hdone, hnone⟩
    · exact not_offeredAt_working (by rw [hchan]; exact hwork)
    · rintro ⟨_, ⟨hidle, _⟩ | ⟨x, hx, hp⟩⟩
      · rw [hchan] at hidle
        exact nomatch hdone.symm.trans hidle
      · have hx' : inView s b.other = some x := (hviews b.other).symm.trans hx
        rw [hpending, if_neg (inView_ne hview hx'), hnone x hx'] at hp
        exact nomatch hp
  rw [react_held_takes (by rw [hseq]; exact hheld) hscan' (by rw [hseq]; exact hhold) htake hnot, hseq]

end

/-! ### The directive -/

section
variable {ws : List Slot} {s : State} {i : Nat} {f : Face} (hvol : s.col.volState = .paused ∨ s.col.volState = .scanning)
  (hlen : ws.length = 6) (hleaf : findLeaf s (ws.take 5) = .ok i) (hface : faceOf (ws.getD 5 0) = some f)
include hvol hlen hleaf hface

theorem retakeRule_full (hfull : 128 ≤ s.tally.retakes.length) : retakeRule ws s = refuse .listFull s := by
  rw [retakeRule, if_neg (by rcases hvol with h | h <;> simp [h]), if_neg (by simp [hlen])]
  simp only [hleaf, hface, hfull, if_true]

variable (hroom : s.tally.retakes.length < 128)
include hroom

theorem retakeRule_pending (hstate : stateOf s (.side i f) = some .pending) :
    retakeRule ws s = refuse .notSettled s := by
  rw [retakeRule, if_neg (by rcases hvol with h | h <;> simp [h]), if_neg (by simp [hlen])]
  simp only [hleaf, hface, Nat.not_le.2 hroom, if_false, hstate]

theorem retakeRule_never {a : TState} (hstate : stateOf s (.side i f) = some a)
    (ha : a = .suppressed ∨ a = .skipped ∨ a = .absent) : retakeRule ws s = refuse .wrongState s := by
  rw [retakeRule, if_neg (by rcases hvol with h | h <;> simp [h]), if_neg (by simp [hlen])]
  rcases ha with rfl | rfl | rfl <;> simp only [hleaf, hface, Nat.not_le.2 hroom, if_false, hstate]

theorem retakeRule_ok {a : TState} (hstate : stateOf s (.side i f) = some a)
    (ha : a = .captured ∨ a = .rejected ∨ a = .withheld) : retakeRule ws s =
      ⟨.ok, [slot (retakeSide i f s).tally.retakes.length, slot (openingOf (retakeSide i f s) i f)],
        react (retakeSide i f s)⟩ := by
  rw [retakeRule, if_neg (by rcases hvol with h | h <;> simp [h]), if_neg (by simp [hlen])]
  rcases ha with rfl | rfl | rfl <;> simp only [hleaf, hface, Nat.not_le.2 hroom, if_false, hstate]

end

/-- Settles O25. -/
theorem retakeAsksForASideAgain : Obligations.RetakeAsksForASideAgain := by
  intro tag ws s i f q htakes hvol hlen hleaf hface hfields
  have hstate := stateOf_fields hfields
  refine ⟨fun hfull => exec_answers htakes rfl (retakeRule_full hvol hlen hleaf hface hfull), fun hroom =>
    ⟨fun hq => exec_answers htakes rfl (retakeRule_pending hvol hlen hleaf hface hroom (hq ▸ hstate)),
      fun hq => exec_answers htakes rfl (retakeRule_never hvol hlen hleaf hface hroom hstate hq), fun hq => ?_⟩⟩
  have hsettled : q.state ≠ .pending := by rcases hq with h | h | h <;> simp [h]
  have halone := retakeSide_alone hfields hsettled
  have hlist := retakeSide_retakes hfields hsettled
  have hlength : (retakeSide i f s).tally.retakes.length = s.tally.retakes.length + 1 := by
    rw [hlist, length_insertRetake]
  refine ⟨retakeSide i f s, ?_, halone, fieldsOf_retakeSide hfields hsettled, retakeSide_counts hfields hsettled, hlength,
    fun e => by rw [hlist, mem_insertRetake], ?_⟩
  · have hvol' : (retakeSide i f s).col.volState = s.col.volState := by rw [halone]
    refine exec_answers htakes rfl ((retakeRule_ok hvol hlen hleaf hface hroom hstate hq).trans ?_)
    rw [hlength, openingOf_retakeSide hfields hsettled]
    split
    next hpaused => rw [react_still (s := retakeSide i f s) (by rw [hvol', hpaused]; exact nofun)]
    · rfl
  · intro b hscan hheld hhold hopen hview hport hstill hother r hshot
    have hreact := react_retakeSide hfields hsettled hscan hheld hhold hopen hview hport hstill hother hshot
    have hclass := classOf_retakeSide hfields hsettled (.side i f)
    have hrecipe : recipeOf (retakeSide i f s) (.side i f) = recipeOf s (.side i f) := by
      rw [recipeOf, hclass, halone, recipeOf]
    have htaken : takenUp b (.side i f) (retakeSide i f s) = _ :=
      takenUp_of (by rw [halone]) (by rw [halone]) (by rw [halone]) hclass hrecipe
    rw [hreact, htaken]
    rfl

end Sys2Proof.Machine
end

section
/-! PROOFS of the family `other`: the closure record and CLOSE VOLUME (07 R148 to R152). -/
namespace Sys2Proof.Machine

/-! ### The targets of a volume -/

theorem allTargets_changeState (x : Target) (a b : TState) (s : State) :
    allTargets (changeState x a b s) = allTargets s := by
  rw [allTargets, allSides_congr (changeState_leaves_length ..), allPanels_changeState, allTargets]

theorem allTargets_of {s t : State} (h : t.col = s.col) : allTargets t = allTargets s := by
  rw [allTargets, allSides_congr (s := s) (s' := t) (by rw [h]), allPanels_col h, allTargets]

theorem allTargets_settle (x : Target) (a : TState) (s : State) : allTargets (settle x a s) = allTargets s := by
  cases h : isPending s x with
  | true =>
    rw [settle_pending h, allTargets_of (markSettledHere_tables ..).1, allTargets_of (dropRetake_tally ..).1,
      allTargets_changeState]
  | false => rw [settle_kept h]

theorem allTargets_settleAll (xs : List Target) (a : TState) (s : State) :
    allTargets (settleAll xs a s) = allTargets s := by
  induction xs generalizing s with
  | nil => rfl
  | cons x xs ih => rw [settleAll_cons, ih, allTargets_settle]

/-- A PENDING target is one of the volume's. -/
theorem mem_allTargets_of_pending {s : State} {x : Target} (h : isPending s x = true) : x ∈ allTargets s := by
  refine fieldsOf_isSome_iff.1 ?_
  cases hx : fieldsOf s x with
  | none => simp [isPending, stateOf, hx] at h
  | some q => rfl

/-! ### The greatest dose (07 R151) -/

/-- The tally fields of a target, blank ones where it is not one of the volume's. -/
def fieldsAt (s : State) (x : Target) : TallyFields := (fieldsOf s x).getD (.blank .absent)

theorem fieldsAt_dose (s : State) (x : Target) : (fieldsAt s x).dose = doseOf s x := by
  rw [fieldsAt, doseOf]
  cases fieldsOf s x <;> rfl

theorem allFields_eq (s : State) : allFields s = (allTargets s).map fun x => (x, fieldsAt s x) := by
  rw [allFields, ← List.filterMap_eq_map]
  refine List.filterMap_congr fun x hx => ?_
  obtain ⟨q, hq⟩ := Option.isSome_iff_exists.1 (fieldsOf_isSome_iff.2 hx)
  simp [fieldsAt, hq]

/-- The greatest number of a list, 0 of an empty one. -/
theorem foldl_max_spec (l : List Nat) (a : Nat) :
    a ≤ l.foldl max a ∧ (∀ n ∈ l, n ≤ l.foldl max a) ∧ (l.foldl max a = a ∨ l.foldl max a ∈ l) := by
  induction l generalizing a with
  | nil => exact ⟨le_refl a, nofun, .inl rfl⟩
  | cons n l ih =>
    obtain ⟨hle, hall, hmem⟩ := ih (max a n)
    simp only [List.foldl_cons, List.mem_cons]
    refine ⟨by omega, fun m hm => hm.elim (fun h => by omega) (hall m), ?_⟩
    rcases hmem with hmem | hmem
    · rw [hmem]
      rcases Nat.le_total a n with h | h
      · exact .inr (.inl (max_eq_right h))
      · exact .inl (max_eq_left h)
    · exact .inr (.inr hmem)

theorem largestDose_eq (s : State) : largestDose s = ((allTargets s).map (doseOf s)).foldl max 0 := by
  rw [largestDose, allFields_eq, List.map_map]
  simp only [Function.comp_def, fieldsAt_dose]

theorem doseOf_le_largest (s : State) (x : Target) : doseOf s x ≤ largestDose s := by
  by_cases hx : x ∈ allTargets s
  · rw [largestDose_eq]
    exact (foldl_max_spec _ 0).2.1 _ (List.mem_map_of_mem hx)
  · have hnone : fieldsOf s x = none := by simpa using mt fieldsOf_isSome_iff.1 hx
    simp [doseOf, hnone]

theorem largestTarget_eq {s : State} (h : largestDose s ≠ 0) :
    largestTarget s = (allTargets s).find? fun x => doseOf s x == largestDose s := by
  rw [largestTarget, if_neg h, allFields_eq, List.find?_map, Option.map_map]
  simp only [Function.comp_def, fieldsAt_dose, Option.map_id']

/-- The first target in digest order that has the greatest dose. -/
theorem largestTarget_first {s : State} (h : largestDose s ≠ 0) : ∃ x before after,
    allTargets s = before ++ x :: after ∧ largestTarget s = some x ∧ doseOf s x = largestDose s ∧
      ∀ y ∈ before, doseOf s y < largestDose s := by
  have hmem : largestDose s ∈ (allTargets s).map (doseOf s) := by
    have hcases := (foldl_max_spec ((allTargets s).map (doseOf s)) 0).2.2
    rw [← largestDose_eq] at hcases
    exact hcases.resolve_left h
  obtain ⟨x, hx, hdose⟩ := List.mem_map.1 hmem
  obtain ⟨y, hy⟩ : ∃ y, (allTargets s).find? (fun x => doseOf s x == largestDose s) = some y := by
    refine Option.isSome_iff_exists.1 (List.find?_isSome.2 ⟨x, hx, by simpa using hdose⟩)
  obtain ⟨hfound, before, after, hsplit, hbefore⟩ := List.find?_eq_some_iff_append.1 hy
  refine ⟨y, before, after, hsplit, (largestTarget_eq h).trans hy, by simpa using hfound, fun z hz => ?_⟩
  exact Nat.lt_of_le_of_ne (doseOf_le_largest s z) (by simpa using hbefore z hz)

/-! ### The digest (07 R152) -/

/-- The digest's slots of a target. -/
def digestSlots (s : State) (x : Target) : List Slot := tallySlots (fieldsAt s x)

theorem flatMap_range_eq {α β : Type} (l : List α) (h : Nat → List β) (k : α → List β)
    (heq : ∀ i a, l[i]? = some a → h i = k a) : (List.range l.length).flatMap h = l.flatMap k := by
  rw [List.flatMap_def, List.flatMap_def]
  congr 1
  refine List.ext_getElem (by simp) fun i hi hi' => ?_
  simp only [List.getElem_map, List.getElem_range]
  exact heq i _ (List.getElem?_eq_getElem _)

theorem digestSlots_sides (s : State) : (allSides s).flatMap (digestSlots s) =
    s.col.leaves.flatMap fun l => tallySlots l.recto ++ tallySlots l.verso := by
  rw [allSides, List.flatMap_assoc]
  refine flatMap_range_eq _ _ _ fun i l hl => ?_
  simp [digestSlots, fieldsAt, fieldsOf, hl, LeafRecord.face]

theorem digestSlots_panels (s : State) : (allPanels s).flatMap (digestSlots s) =
    s.col.foldouts.flatMap fun e => (e.getD []).flatMap fun p => tallySlots p.tally := by
  rw [allPanels, panelsUnder, List.flatMap_assoc]
  refine flatMap_range_eq _ _ _ fun f e he => ?_
  have hpanels : panelsOf s f = e := by rw [panelsOf, he]; rfl
  rw [hpanels, List.flatMap_map]
  refine flatMap_range_eq _ _ _ fun n p hp => ?_
  cases e with
  | none => simp at hp
  | some ps =>
    have hfields : fieldsOf s (.panel f (n + 1)) = some p.tally := by
      rw [Option.getD_some] at hp
      simp [fieldsOf, hpanels, hp]
    rw [digestSlots, fieldsAt, hfields, Option.getD_some]

theorem digestOf_eq (s : State) : digestOf s = crc32 (slotsBytes (
    (s.col.leaves.flatMap fun l => tallySlots l.recto ++ tallySlots l.verso) ++
    s.col.foldouts.flatMap fun e => (e.getD []).flatMap fun p => tallySlots p.tally)) := by
  rw [digestOf, allFields_eq, List.flatMap_map, ← digestSlots_sides, ← digestSlots_panels, ← List.flatMap_append]
  rfl

/-! ### The gatherings' summary (07 R151) -/

theorem capturedSides_eq (l : LeafRecord) :
    capturedSides l = [l.recto, l.verso].countP fun q => decide (q.state = .captured) := by
  by_cases hr : l.recto.state = .captured <;> by_cases hv : l.verso.state = .captured <;>
    simp [capturedSides, hr, hv]

/-! ### The directive -/

/-- A volume closed in every block, the closure record taken from the tally as it stands. -/
def closed (forced : Nat) (s : State) : State :=
  { s with
    col := { s.col with volState := .closed }
    tally := { s.tally with clockRuns := false, closure := some (closureOf s forced) }
    seq := stoppedSeq s.seq, lamps := { s.lamps with cut := both false }, chans := visitsLeft s }

theorem closeWith_eq (forced : Nat) (s : State) : closeWith forced s = closed forced s := by
  rw [closeWith, stopSequencer_eq]
  rfl

/-- The tally as CLOSE VOLUME finds it, every PENDING target SKIPPED with FORCE. -/
def forcedOut (force : Bool) (s : State) : State := if force then settleAll (allTargets s) .skipped s else s

/-- How many targets FORCE skips. -/
def forcedCount (force : Bool) (s : State) : Nat := if force then (allTargets s).countP (isPending s) else 0

theorem closeVolume_eq (force : Bool) (s : State) : closeVolume force s =
    ⟨.ok, [slot (forcedOut force s).col.serial, slot (forcedCount force s),
      (closureOf (forcedOut force s) (forcedCount force s)).digest],
      closed (forcedCount force s) (forcedOut force s)⟩ := by
  rw [closeVolume, closeWith_eq]
  rfl

theorem tallyAlone_forcedOut (force : Bool) (s : State) : TallyAlone s (forcedOut force s) := by
  cases force with
  | true => exact tallyAlone_settleAll ..
  | false => rfl

theorem allTargets_forcedOut (force : Bool) (s : State) : allTargets (forcedOut force s) = allTargets s := by
  cases force with
  | true => exact allTargets_settleAll ..
  | false => rfl

theorem fieldsOf_forcedOut (force : Bool) (s : State) (x : Target) : fieldsOf (forcedOut force s) x =
    if force = true ∧ isPending s x = true then (fieldsOf s x).map ({ · with state := .skipped }) else fieldsOf s x := by
  cases force with
  | true =>
    have hskipped : TState.skipped ≠ .pending := nofun
    refine (fieldsOf_settleAll hskipped (allTargets s) x s).trans (if_congr ?_ rfl rfl)
    exact ⟨fun h => ⟨rfl, h.2⟩, fun h => ⟨mem_allTargets_of_pending h.2, h.2⟩⟩
  | false => exact (if_neg fun h => nomatch h.1).symm

theorem doseOf_forcedOut (force : Bool) (s : State) : doseOf (forcedOut force s) = doseOf s := by
  funext x
  rw [doseOf, fieldsOf_forcedOut, doseOf]
  split
  · cases fieldsOf s x <;> rfl
  · rfl

theorem mem_visitsLeft {s : State} (h : s.seq.state = .held ∨ s.seq.state = .panelHeld) (b : Side) :
    (visitsLeft s).get b = if (s.chan b).state = .idle ∨ (s.chan b).state = .done then .afterReset else s.chan b := by
  have hended : (s.chan b).visitEnded =
      if (s.chan b).state = .idle ∨ (s.chan b).state = .done then .afterReset else s.chan b :=
    if_congr (Channel.atRest_iff _) rfl rfl
  rw [visitsLeft, if_pos h, ← hended]
  cases b <;> rfl

theorem closeRule_ok {w : Slot} {s : State} (hvol : s.col.volState = .ready ∨ s.col.volState = .paused)
    (hmanual : s.seq.manual = none)
    (h : w.getLsbD 0 = true ∨ s.tally.sideCounts.pending + s.tally.panelCounts.pending = 0) :
    closeRule [w] s = closeVolume (w.getLsbD 0) s := by
  rw [closeRule, if_neg (by rcases hvol with h | h <;> simp [h]), if_neg (by simp), if_neg (by simp [hmanual])]
  refine if_neg ?_
  rcases h with h | h
  · simp [h]
  · have hnone : ¬0 < s.tally.sideCounts.pending + s.tally.panelCounts.pending := by omega
    simp [hnone]

/-- What a volume's closing leaves of the state before FORCE. -/
theorem closed_of_alone {s u : State} (h : TallyAlone s u) (forced : Nat) : closed forced u = { s with
    col := { s.col with volState := .closed, leaves := u.col.leaves, foldouts := u.col.foldouts }
    tally := { s.tally with
      sideCounts := u.tally.sideCounts, panelCounts := u.tally.panelCounts, retakes := u.tally.retakes
      clockRuns := false, closure := some (closureOf u forced) }
    seq := stoppedSeq s.seq, lamps := { s.lamps with cut := both false }, chans := visitsLeft s } := by
  rw [TallyAlone] at h
  generalize hc : closureOf u forced = c
  rw [closed, hc]
  generalize u.col.leaves = l, u.col.foldouts = o, u.tally.sideCounts = a, u.tally.panelCounts = p,
    u.tally.retakes = r, u.seq.settledHere = m at h ⊢
  subst h
  rfl

/-- Settles O26. -/
theorem closeVolumeClosesTheAccount : Obligations.CloseVolumeClosesTheAccount := by
  intro tag w s htakes hvol
  refine ⟨fun hmanual => exec_answers htakes rfl ?_, fun hmanual hforce hpending => exec_answers htakes rfl ?_,
    fun hmanual h => ?_⟩
  · rw [closeRule, if_neg (by rcases hvol with h | h <;> simp [h]), if_neg (by simp),
      if_pos (Option.isSome_iff_ne_none.2 hmanual), refuse]
  · rw [closeRule, if_neg (by rcases hvol with h | h <;> simp [h]), if_neg (by simp), if_neg (by simp [hmanual])]
    refine if_pos ?_
    rw [List.getD_cons_zero, hforce]
    simpa using hpending
  · have halone := tallyAlone_forcedOut (w.getLsbD 0) s
    have hclosed := closed_of_alone halone (forcedCount (w.getLsbD 0) s)
    have hrule := (closeRule_ok hvol hmanual h).trans (closeVolume_eq (w.getLsbD 0) s)
    have hfields := fieldsOf_forcedOut (w.getLsbD 0) s
    have hdose := doseOf_forcedOut (w.getLsbD 0) s
    have htargets := allTargets_forcedOut (w.getLsbD 0) s
    rw [hclosed] at hrule
    generalize forcedOut (w.getLsbD 0) s = u at halone hrule hfields hdose htargets
    have hserial : u.col.serial = s.col.serial := by rw [halone]
    have hvolume : u.col.volume = s.col.volume := by rw [halone]
    have hgatherings : u.col.gatherings = s.col.gatherings := by rw [halone]
    rw [hserial] at hrule
    refine ⟨_, closureOf u (forcedCount (w.getLsbD 0) s), exec_answers htakes rfl hrule, rfl, fun hheld hpanel => ?_,
      mem_visitsLeft, fun x => ?_, hserial, rfl, by rw [closureOf, halone], by rw [closureOf, halone], rfl, rfl, ?_,
      fun v hv => ?_, fun x => ?_, fun hzero => if_pos hzero, fun hlargest => ?_, ?_, fun i hi => ?_, digestOf_eq u⟩
    · exact if_neg fun h => h.elim hheld hpanel
    · exact (congrFun (fieldsOf_of (s := u) rfl rfl) x).trans (hfields x)
    · rw [closureOf, hvolume]
    · simp only [closureOf, hvolume, hv, Option.map_some, Option.getD_some, and_self]
    · exact hdose ▸ doseOf_le_largest u x
    · have hfirst := largestTarget_first (s := u) hlargest
      rw [hdose, htargets] at hfirst
      exact hfirst
    · simp [closureOf, hgatherings]
    · simp only [closureOf, hgatherings, List.getElem?_map, List.getElem?_range hi, Option.map_some, summaryOf,
        funext capturedSides_eq, beq_eq_decide]

end Sys2Proof.Machine
end

section
/-! PROOFS of the family `other`: END LOADING, its eight checks (01 R15) and the tally it initialises (01 R16). -/
namespace Sys2Proof.Machine

/-! ### Looking for the lowest index -/

theorem find_range_none {n : Nat} {p : Nat → Bool} :
    (List.range n).find? p = none ↔ ∀ i, i < n → p i = false := by
  simp [List.find?_eq_none]

theorem find_range_some {n i : Nat} {p : Nat → Bool} (h : (List.range n).find? p = some i) :
    i < n ∧ p i = true ∧ ∀ j, j < i → p j = false := by
  rw [List.find?_range_eq_some] at h
  obtain ⟨hp, hmem, hfirst⟩ := h
  exact ⟨List.mem_range.1 hmem, hp, fun j hj => by simpa using hfirst j hj⟩

/-- A property of every leaf, by index and by record. -/
theorem forall_leafAt {s : State} {P : LeafRecord → Prop} :
    (∀ i, i < s.col.leaves.length → P (leafAt s i)) ↔ ∀ l ∈ s.col.leaves, P l := by
  rw [List.forall_mem_iff_forall_getElem]
  simp only [leafAt]
  exact forall_congr' fun i => forall_congr' fun hi => by rw [List.getD_eq_getElem _ _ hi]

theorem leafAt_of_get {s : State} {i : Nat} {l : LeafRecord} (h : s.col.leaves[i]? = some l) : leafAt s i = l := by
  rw [leafAt, List.getD_eq_getElem?_getD, h, Option.getD_some]

theorem get_of_lt {s : State} {i : Nat} (h : i < s.col.leaves.length) : s.col.leaves[i]? = some (leafAt s i) := by
  rw [leafAt, List.getD_eq_getElem _ _ h, List.getElem?_eq_getElem h]

/-! ### The checks of the leaves -/

theorem check1_none {s : State} : check1 s = none ↔ ∀ l ∈ s.col.leaves, l.written = true := by
  rw [check1, find_range_none, ← forall_leafAt (P := fun l => l.written = true)]
  simp only [Bool.not_eq_false']

theorem check1_some {s : State} {item : Nat} (h : check1 s = some item) :
    ∃ l, s.col.leaves[item]? = some l ∧ l.written = false ∧
      ∀ j l', j < item → s.col.leaves[j]? = some l' → l'.written = true := by
  obtain ⟨hlt, hitem, hfirst⟩ := find_range_some h
  refine ⟨leafAt s item, get_of_lt hlt, by simpa using hitem, fun j l' hj hl' => ?_⟩
  have hwritten := hfirst j hj
  rw [leafAt_of_get hl'] at hwritten
  simpa using hwritten

theorem check4_none {s : State} : check4 s = none ↔ ∀ l ∈ s.col.leaves, l.absent = true → l.foldout = none := by
  rw [check4, find_range_none, ← forall_leafAt (P := fun l => l.absent = true → l.foldout = none)]
  simp

theorem check4_some {s : State} {item : Nat} (h : check4 s = some item) :
    ∃ l, s.col.leaves[item]? = some l ∧ l.absent = true ∧ l.foldout ≠ none ∧
      ∀ j l', j < item → s.col.leaves[j]? = some l' → l'.absent = true → l'.foldout = none := by
  obtain ⟨hlt, hitem, hfirst⟩ := find_range_some h
  rw [Bool.and_eq_true, Option.isSome_iff_ne_none] at hitem
  refine ⟨leafAt s item, get_of_lt hlt, hitem.1, hitem.2, fun j l' hj hl' habsent => ?_⟩
  have hnone := hfirst j hj
  rw [leafAt_of_get hl', habsent] at hnone
  simpa using hnone

theorem check7_none {s : State} : check7 s = none ↔ ∃ l ∈ s.col.leaves, l.absent = false := by
  have hany : ((List.range s.col.leaves.length).any fun i => !(leafAt s i).absent) = true ↔
      ∃ l ∈ s.col.leaves, l.absent = false := by
    have hall := forall_leafAt (s := s) (P := fun l => ¬l.absent = false)
    rw [List.any_eq_true, ← not_iff_not]
    push Not at hall ⊢
    rw [← hall]
    simp
  rw [check7, ← hany]
  split <;> simp_all

theorem check7_some {s : State} {item : Nat} (h : check7 s = some item) : item = 0 := by
  rw [check7] at h
  split at h
  · exact nomatch h
  · exact (Option.some.inj h).symm

/-- The start leaf of the volume held. -/
def startLeaf (s : State) : Nat := (s.col.volume.map (·.startLeaf)).getD 0

theorem check8_eq (s : State) : check8 s = if (leafAt s (startLeaf s)).absent then some (startLeaf s) else none := rfl

theorem check8_none {s : State} :
    check8 s = none ↔ ∀ l, s.col.leaves[startLeaf s]? = some l → l.absent = false := by
  rw [check8_eq]
  cases hl : s.col.leaves[startLeaf s]? with
  | none => simp [leafAt, List.getD_eq_getElem?_getD, hl, LeafRecord.unwritten]
  | some l => simp [leafAt_of_get hl]

theorem check8_some {s : State} {item : Nat} (h : check8 s = some item) : item = startLeaf s := by
  rw [check8_eq] at h
  split at h
  · exact (Option.some.inj h).symm
  · exact nomatch h

/-! ### The check of the gatherings -/

/-- A written gathering's leaf count, 0 of one that is not written. -/
def gatheringSize (s : State) (i : Nat) : Nat := ((s.col.gatherings.getD i none).map (·.leafCount)).getD 0

theorem gatheringCount_le (gs : List (Option GatheringEntry)) : gatheringCount gs ≤ gs.length := by
  rw [gatheringCount, ← List.length_reverse (as := gs)]
  exact (List.dropWhile_suffix _).length_le

theorem gatheringSizes_eq (s : State) :
    gatheringSizes s = (List.range (gatheringCount s.col.gatherings)).map (gatheringSize s) := by
  refine List.ext_getElem ?_ fun i hi hi' => ?_
  · simp [gatheringSizes, gatheringCount_le]
  · simp only [gatheringSizes, List.length_map, List.length_take] at hi
    have hlt : i < s.col.gatherings.length := by omega
    simp [gatheringSizes, gatheringSize, List.getD_eq_getElem?_getD, List.getElem?_eq_getElem hlt]

theorem firstExcess_none {n i acc : Nat} {l : List Nat} : firstExcess n i acc l = none ↔ l = [] ∨ acc + l.sum ≤ n := by
  induction l generalizing i acc with
  | nil => simp [firstExcess]
  | cons x l ih =>
    rw [firstExcess]
    split
    next h => simp only [reduceCtorEq, List.sum_cons, false_or, false_iff]; omega
    next h =>
      rw [ih, List.sum_cons]
      cases l with
      | nil => simp only [List.sum_nil, reduceCtorEq, false_or]; omega
      | cons y l => simp only [reduceCtorEq, false_or]; omega

theorem check2_none {s : State} : check2 s = none ↔ 1 ≤ gatheringCount s.col.gatherings ∧
    (∀ i, i < gatheringCount s.col.gatherings → s.col.gatherings.getD i none ≠ none) ∧
    ((List.range (gatheringCount s.col.gatherings)).map (gatheringSize s)).sum = leafCount s := by
  rw [← gatheringSizes_eq, check2]
  by_cases hzero : gatheringCount s.col.gatherings = 0
  · simp [hzero]
  · have hsizes : gatheringSizes s ≠ [] := by
      rw [gatheringSizes_eq]
      simpa using hzero
    have hlow : (List.range (gatheringCount s.col.gatherings)).find? (fun i => (s.col.gatherings.getD i none).isNone) =
        none ↔ ∀ i, i < gatheringCount s.col.gatherings → s.col.gatherings.getD i none ≠ none := by
      rw [find_range_none]
      simp only [Option.isNone_eq_false_iff, Option.isSome_iff_ne_none]
    have hexcess := firstExcess_none (n := leafCount s) (i := 0) (acc := 0) (l := gatheringSizes s)
    rw [← hlow]
    simp only [hzero, if_false]
    cases hfind : (List.range (gatheringCount s.col.gatherings)).find? (fun i => (s.col.gatherings.getD i none).isNone) with
    | some i => simp
    | none =>
      cases hfirst : firstExcess (leafCount s) 0 0 (gatheringSizes s) with
      | some i =>
        rw [hfirst] at hexcess
        simp only [reduceCtorEq, hsizes, false_or, false_iff] at hexcess
        simp only [reduceCtorEq, true_and, false_iff]
        omega
      | none =>
        have hle := (hexcess.1 hfirst).resolve_left hsizes
        simp only [ite_eq_right_iff, reduceCtorEq, imp_false, true_and]
        omega

/-! ### The checks of the fold-outs -/

theorem isWritten_iff {s : State} {f : Nat} : isWritten s f = true ↔ ∃ ps, panelsOf s f = some ps :=
  Option.isSome_iff_exists

theorem check3_none {s : State} : check3 s = none ↔
    (∀ f ∈ leafRefs s, ∃ ps, panelsOf s f = some ps) ∧
      ∀ f, f < 64 → ∀ g ∈ nestedRefs s f, ∃ ps, panelsOf s g = some ps := by
  have hleaves := forall_leafAt (s := s) (P := fun l => (l.foldout.map fun r => !isWritten s r.2).getD false = false)
  have hrefs : (∀ l ∈ s.col.leaves, (l.foldout.map fun r => !isWritten s r.2).getD false = false) ↔
      ∀ f ∈ leafRefs s, isWritten s f = true := by
    simp only [leafRefs, List.mem_filterMap, Option.map_eq_some_iff, forall_exists_index, and_imp]
    constructor
    · rintro h f l hl r hr rfl
      simpa [hr] using h l hl
    · intro h l hl
      cases hr : l.foldout with
      | none => rfl
      | some r => simpa using h r.2 l hl r hr rfl
  rw [check3, Option.or_eq_none_iff, find_range_none, find_range_none, hleaves, hrefs]
  simp only [isWritten_iff, List.any_eq_false, Bool.not_eq_true', Bool.not_eq_false]

theorem count_allRefs (s : State) (f : Nat) :
    (allRefs s).count f = (leafRefs s).count f + ((List.range 64).map fun h => (nestedRefs s h).count f).sum := by
  rw [allRefs, List.count_append, List.count_flatMap]
  rfl

theorem check5_none {s : State} : check5 s = none ↔ ∀ f, f < 64 → (∃ ps, panelsOf s f = some ps) →
    (leafRefs s).count f + ((List.range 64).map fun h => (nestedRefs s h).count f).sum = 1 := by
  rw [check5, find_range_none]
  simp only [← count_allRefs, ← isWritten_iff]
  simp

theorem mem_withinDepth {s : State} {f : Nat} : f ∈ withinDepth s ↔
    ∃ a ∈ leafRefs s, f = a ∨ f ∈ nestedRefs s a ∨ (∃ b ∈ nestedRefs s a, f ∈ nestedRefs s b) ∨
      ∃ b ∈ nestedRefs s a, ∃ c ∈ nestedRefs s b, f ∈ nestedRefs s c := by
  simp only [withinDepth, List.mem_append, List.mem_flatMap]
  constructor
  · rintro (((h | ⟨a, ha, h⟩) | ⟨b, ⟨a, ha, hb⟩, h⟩) | ⟨c, ⟨b, ⟨a, ha, hb⟩, hc⟩, h⟩)
    · exact ⟨f, h, .inl rfl⟩
    · exact ⟨a, ha, .inr (.inl h)⟩
    · exact ⟨a, ha, .inr (.inr (.inl ⟨b, hb, h⟩))⟩
    · exact ⟨a, ha, .inr (.inr (.inr ⟨b, hb, c, hc, h⟩))⟩
  · rintro ⟨a, ha, rfl | h | ⟨b, hb, h⟩ | ⟨b, hb, c, hc, h⟩⟩
    · exact .inl (.inl (.inl ha))
    · exact .inl (.inl (.inr ⟨a, ha, h⟩))
    · exact .inl (.inr ⟨b, ⟨a, ha, hb⟩, h⟩)
    · exact .inr ⟨c, ⟨b, ⟨a, ha, hb⟩, hc⟩, h⟩

theorem check6_none {s : State} : check6 s = none ↔ ∀ f, f < 64 → (∃ ps, panelsOf s f = some ps) →
    ∃ a ∈ leafRefs s, f = a ∨ f ∈ nestedRefs s a ∨ (∃ b ∈ nestedRefs s a, f ∈ nestedRefs s b) ∨
      ∃ b ∈ nestedRefs s a, ∃ c ∈ nestedRefs s b, f ∈ nestedRefs s c := by
  rw [check6, find_range_none]
  simp only [← mem_withinDepth, ← isWritten_iff]
  simp

/-! ### The first check that fails (01 R15) -/

/-- The checks by their numbers. -/
def checkItem (s : State) : Nat → Option Nat
  | 1 => check1 s
  | 2 => check2 s
  | 3 => check3 s
  | 4 => check4 s
  | 5 => check5 s
  | 6 => check6 s
  | 7 => check7 s
  | 8 => check8 s
  | _ => none

theorem collationFault_eq (s : State) : collationFault s =
    [1, 2, 3, 4, 5, 6, 7, 8].findSome? fun k => (checkItem s k).map fun item => (k, item) := rfl

theorem collationFault_none {s : State} (h : ∀ k, 1 ≤ k → k ≤ 8 → checkItem s k = none) :
    collationFault s = none := by
  rw [collationFault_eq, List.findSome?_eq_none_iff]
  intro k hk
  have hrange : 1 ≤ k ∧ k ≤ 8 := by simp at hk; omega
  rw [h k hrange.1 hrange.2]
  rfl

theorem collationFault_first {s : State} {k item : Nat} (hk : 1 ≤ k) (hk' : k ≤ 8)
    (hbefore : ∀ j, 1 ≤ j → j < k → checkItem s j = none) (hitem : checkItem s k = some item) :
    collationFault s = some (k, item) := by
  rw [collationFault_eq, List.findSome?_eq_some_iff]
  obtain ⟨n, rfl⟩ : ∃ n, k = n + 1 := ⟨k - 1, by omega⟩
  have hsplit : [1, 2, 3, 4, 5, 6, 7, 8] = List.range' 1 n ++ (n + 1) :: List.range' (n + 2) (7 - n) := by
    have hn : n ≤ 7 := by omega
    clear hk hk' hbefore hitem
    decide +revert
  refine ⟨_, _, _, hsplit, by rw [hitem]; rfl, fun j hj => ?_⟩
  rw [List.mem_range'_1] at hj
  rw [hbefore j hj.1 (by omega)]
  rfl

/-! ### The gathering of each leaf (01 R8) -/

/-- Counted in order, the runs of a list of lengths take each index in one run. -/
theorem run_of_index {l : List Nat} {i : Nat} (first : Nat) (hi : i < l.sum) : ∃ k, k < l.length ∧
    (l.take k).sum ≤ i ∧ i < (l.take (k + 1)).sum ∧
    ((l.zipIdx first).flatMap fun (n, j) => List.replicate n j)[i]? = some (first + k) := by
  induction l generalizing i first with
  | nil => exact absurd hi (Nat.not_lt_zero i)
  | cons n l ih =>
    rw [List.zipIdx_cons, List.flatMap_cons]
    by_cases h : i < n
    · refine ⟨0, by simp, by simp, by simpa using h, ?_⟩
      rw [List.getElem?_append_left (by simpa using h), List.getElem?_replicate, if_pos h]
      rfl
    · rw [List.sum_cons] at hi
      obtain ⟨k, hk, hlow, hhigh, hget⟩ := ih (i := i - n) (first + 1) (by omega)
      refine ⟨k + 1, by simpa using hk, ?_, ?_, ?_⟩
      · rw [List.take_succ_cons, List.sum_cons]
        omega
      · rw [List.take_succ_cons, List.sum_cons]
        omega
      · rw [List.getElem?_append_right (by simpa using h), List.length_replicate, hget]
        congr 1
        omega

theorem gatheringOfLeaves_get {s : State} {i : Nat} (hi : i < (gatheringSizes s).sum) :
    ∃ k, k < gatheringCount s.col.gatherings ∧ ((List.range k).map (gatheringSize s)).sum ≤ i ∧
      i < ((List.range (k + 1)).map (gatheringSize s)).sum ∧ (gatheringOfLeaves s)[i]? = some k := by
  obtain ⟨k, hk, hlow, hhigh, hget⟩ := run_of_index 0 hi
  rw [gatheringSizes_eq] at hk hlow hhigh
  rw [List.length_map, List.length_range] at hk
  rw [← List.map_take, List.take_range, Nat.min_eq_left (by omega)] at hlow hhigh
  exact ⟨k, hk, hlow, hhigh, hget.trans (by rw [Nat.zero_add])⟩

/-! ### The statement -/

theorem endLoadingRule_bad {s : State} {k item : Nat} (hvol : s.col.volState = .loading)
    (h : collationFault s = some (k, item)) :
    endLoadingRule [] s = ⟨.collationBad, [slot k, slot item], s⟩ := by
  rw [endLoadingRule, if_neg (by simp [hvol]), if_neg (by simp)]
  simp only [h]

theorem endLoadingRule_ok {s : State} (hvol : s.col.volState = .loading) (h : collationFault s = none) :
    endLoadingRule [] s = ⟨.ok, [slot (makeReady s).tally.sideCounts.pending,
      slot (makeReady s).tally.panelCounts.pending], makeReady s⟩ := by
  rw [endLoadingRule, if_neg (by simp [hvol]), if_neg (by simp)]
  simp only [h]

theorem makeReady_leaf {s : State} {i : Nat} {l : LeafRecord} (h : s.col.leaves[i]? = some l) :
    (makeReady s).col.leaves[i]? = some (l.ready (gatheringOfLeaves s)[i]?) := by
  simp [makeReady, readyCollation, List.getElem?_mapIdx, h]

/-- Settles O12. -/
theorem endLoadingInitialisesTheTally : Obligations.EndLoadingInitialisesTheTally := by
  intro tag s htakes hvol hlaw g size refs nested written check
  have hchecks (k : Nat) (hk : 1 ≤ k) (hk' : k ≤ 8) : check k ↔ checkItem s k = none := by
    interval_cases k
    · exact check1_none.symm
    · exact check2_none.symm
    · exact check3_none.symm
    · exact check4_none.symm
    · exact check5_none.symm
    · exact check6_none.symm
    · exact check7_none.symm
    · exact check8_none.symm
  refine ⟨fun k hk hk' hbefore hfails => ?_, fun hall => ?_⟩
  · obtain ⟨item, hitem⟩ := Option.ne_none_iff_exists'.1 (mt (hchecks k hk hk').2 hfails)
    have hfault : collationFault s = some (k, item) := collationFault_first hk hk'
      (fun j hj hjk => (hchecks j hj (by omega)).1 (hbefore j hj hjk)) hitem
    refine ⟨item, exec_answers htakes rfl (endLoadingRule_bad hvol hfault), ?_, ?_, ?_, ?_⟩
    · rintro rfl
      exact check1_some hitem
    · rintro rfl
      exact check4_some hitem
    · rintro rfl
      exact check7_some hitem
    · rintro rfl
      exact check8_some hitem
  · have hnone : collationFault s = none :=
      collationFault_none fun k hk hk' => (hchecks k hk hk').1 (hall k)
    have hsum : (gatheringSizes s).sum = s.col.leaves.length := by
      rw [gatheringSizes_eq, hlaw.1 (hvol ▸ nofun)]
      exact (hall 2).2.2
    refine ⟨makeReady s, exec_answers htakes rfl (endLoadingRule_ok hvol hnone), rfl, rfl, rfl,
      List.length_mapIdx, fun i l hl => ?_, rfl⟩
    obtain ⟨hi, _⟩ := List.getElem?_eq_some_iff.1 hl
    obtain ⟨k, hk, hlow, hhigh, hget⟩ := gatheringOfLeaves_get (hsum ▸ hi)
    exact ⟨k, hk, hlow, hhigh, (makeReady_leaf hl).trans (by rw [hget]; rfl)⟩

end Sys2Proof.Machine
end

section
/-! PROOFS of the family `other`: one millisecond with no command waiting (02 R25, logs 1 and 2). -/
namespace Sys2Proof.Machine

/-! ### The inputs' levels -/

theorem Inputs.get_set_self (q : Inputs) (i : Input) (b : Bool) : (q.set i b).get i = b := by cases i <;> rfl

theorem Inputs.set_get (q : Inputs) (i : Input) : q.set i (q.get i) = q := by cases i <;> rfl

theorem Inputs.get_set_ite (q : Inputs) (i j : Input) (b : Bool) :
    (q.set i b).get j = if j = i then b else q.get j := by
  by_cases h : j = i
  · rw [if_pos h, h, Inputs.get_set_self]
  · rw [if_neg h, Inputs.get_set_ne (Ne.symm h)]

/-- What a sample of an input reads. -/
def nowAt (s : State) (i : Input) : Bool := reading (polarityOf s i) (s.pins.inputs.get i)

/-- A sample that reads as the level and the last sample already do changes nothing. -/
theorem sampleInput_same {s : State} {i : Input} (hreading : s.seq.readings.get i = nowAt s i)
    (hlevel : s.seq.levels.get i = nowAt s i) : sampleInput s i = s := by
  have hset : s.seq.readings.set i (nowAt s i) = s.seq.readings := by rw [← hreading, Inputs.set_get]
  have hsame : s.setSeq { s.seq with readings := s.seq.readings.set i (nowAt s i) } = s := by
    rw [hset]
    rfl
  exact (if_neg fun h => h.2 hlevel.symm).trans hsame

theorem sampleInputs_same {s : State} (h : ∀ i, s.seq.readings.get i = nowAt s i ∧ s.seq.levels.get i = nowAt s i) :
    sampleInputs s = s := by
  have hfold (xs : List Input) : xs.foldl sampleInput s = s := by
    induction xs with
    | nil => rfl
    | cons x xs ih => rw [List.foldl_cons, sampleInput_same (h x).1 (h x).2, ih]
  exact hfold allInputs

/-! ### Samples of a part that turns nothing -/

/-- Nothing turns: no motion, no manual motion, and the volume is not SCANNING. -/
def Still (s : State) : Prop := s.col.volState ≠ .scanning ∧ s.seq.state.motion = none ∧ s.seq.manual = none

/-- What a sample leaves alone while nothing turns. -/
structure SampleKeeps (s t : State) : Prop where
  col : t.col = s.col
  pins : t.pins = s.pins
  settings : t.settings = s.settings
  chans : t.chans = s.chans
  strobe : t.lamps.strobe = s.lamps.strobe
  state : t.seq.state = s.seq.state
  manual : t.seq.manual = s.seq.manual

theorem SampleKeeps.refl (s : State) : SampleKeeps s s := ⟨rfl, rfl, rfl, rfl, rfl, rfl, rfl⟩

theorem SampleKeeps.trans {s t u : State} (h : SampleKeeps s t) (k : SampleKeeps t u) : SampleKeeps s u :=
  ⟨k.col.trans h.col, k.pins.trans h.pins, k.settings.trans h.settings, k.chans.trans h.chans,
    k.strobe.trans h.strobe, k.state.trans h.state, k.manual.trans h.manual⟩

theorem SampleKeeps.still {s t : State} (h : SampleKeeps s t) (k : Still s) : Still t := by
  obtain ⟨hvol, hmotion, hmanual⟩ := k
  exact ⟨by rwa [h.col], by rwa [h.state], h.manual.trans hmanual⟩

theorem SampleKeeps.nowAt {s t : State} (h : SampleKeeps s t) (i : Input) : nowAt t i = nowAt s i := by
  rw [Machine.nowAt, polarityOf, h.settings, h.pins, Machine.nowAt, polarityOf]

/-- What an arrival does at the sequencer where nothing turns. -/
theorem arrivesActive_still {s : State} (h : Still s) (i : Input) : SampleKeeps s (arrivesActive i s) ∧
    (arrivesActive i s).seq.levels = s.seq.levels ∧ (arrivesActive i s).seq.readings = s.seq.readings := by
  obtain ⟨hvol, hmotion, hmanual⟩ := h
  have hstate (m : Motion) : s.seq.state ≠ m.state := fun hs => by
    rw [hs] at hmotion
    cases m <;> exact nomatch hmotion
  have hnone (m : ManualMotion) : s.seq.manual ≠ some m := hmanual ▸ nofun
  have hfar (side : Side) : farArrives side s = s.setSeq { s.seq with lastFar := some side } :=
    farArrives_other (fun h => hstate .pick h.1) (fun h => hstate .carry h.1)
  have hsame : SampleKeeps s s ∧ s.seq.levels = s.seq.levels ∧ s.seq.readings = s.seq.readings :=
    ⟨.refl s, rfl, rfl⟩
  cases i with
  | home => rw [arrivesActive_home_other (hstate .home) (hnone _)]; exact hsame
  | apex => rw [arrivesActive, if_neg (show s.seq.state ≠ .carry from hstate .carry)]; exact hsame
  | farLeft => rw [arrivesActive, hfar]; exact ⟨⟨rfl, rfl, rfl, rfl, rfl, rfl, rfl⟩, rfl, rfl⟩
  | farRight => rw [arrivesActive, hfar]; exact ⟨⟨rfl, rfl, rfl, rfl, rfl, rfl, rfl⟩, rfl, rfl⟩
  | vacuumGood => rw [arrivesActive, if_neg (show s.seq.state ≠ .pick from hstate .pick)]; exact hsame
  | platenDown => rw [arrivesActive_platenDown_other (hstate .platenDown) (hnone _)]; exact hsame
  | platenUp =>
    rw [arrivesActive_platenUp_other (hstate .platenUp) (hnone _)]
    exact ⟨⟨rfl, rfl, rfl, rfl, rfl, rfl, rfl⟩, rfl, rfl⟩
  | leftContact => rw [arrivesActive, contactArrives_other (hstate .present)]; exact hsame
  | rightContact => rw [arrivesActive, contactArrives_other (hstate .present)]; exact hsame
  | leafEdge => rw [arrivesActive, if_neg fun h => hstate .carry h.1]; exact hsame
  | pedal =>
    have hpedal : pedalAtSequencer (restartDark s) = restartDark s := if_neg hvol
    rw [arrivesActive, hpedal]
    exact ⟨⟨rfl, rfl, rfl, rfl, rfl, rfl, rfl⟩, rfl, rfl⟩

theorem platenLifted_still {s : State} (h : Still s) : SampleKeeps s (platenLifted s) ∧
    (platenLifted s).seq.levels = s.seq.levels ∧ (platenLifted s).seq.readings = s.seq.readings := by
  by_cases hheld : s.seq.state = .held
  · cases hvol : s.col.volState with
    | scanning => exact absurd hvol h.1
    | paused =>
      rw [platenLifted_paused hheld hvol]
      exact ⟨⟨rfl, rfl, rfl, rfl, rfl, rfl, rfl⟩, rfl, rfl⟩
    | empty | loading | ready | closed =>
      have hignored : platenLifted s = s := by simp only [platenLifted, hheld, hvol, if_true]
      rw [hignored]
      exact ⟨.refl s, rfl, rfl⟩
  · rw [platenLifted, if_neg hheld]
    exact ⟨.refl s, rfl, rfl⟩

theorem arrivesInactive_still {s : State} (h : Still s) (i : Input) : SampleKeeps s (arrivesInactive i s) ∧
    (arrivesInactive i s).seq.levels = s.seq.levels ∧ (arrivesInactive i s).seq.readings = s.seq.readings := by
  cases i with
  | vacuumGood =>
    have hlay : s.seq.state ≠ .lay := fun hs => by
      have hmotion := h.2.1
      rw [hs] at hmotion
      exact nomatch hmotion
    rw [arrivesInactive, if_neg hlay]
    exact ⟨.refl s, rfl, rfl⟩
  | platenDown => exact platenLifted_still h
  | home | apex | farLeft | farRight | platenUp | leftContact | rightContact | leafEdge | pedal =>
    exact ⟨.refl s, rfl, rfl⟩

/-- An arrival where nothing turns changes its own level alone, besides what its reading cannot see. -/
theorem arrive_still {s : State} (h : Still s) (i : Input) (active : Bool) : SampleKeeps s (arrive i active s) ∧
    (arrive i active s).seq.levels = s.seq.levels.set i active ∧
    (arrive i active s).seq.readings = s.seq.readings := by
  have hset : Still (setLevel i active s) := h
  have hkeeps : SampleKeeps s (setLevel i active s) := ⟨rfl, rfl, rfl, rfl, rfl, rfl, rfl⟩
  have hall : SampleKeeps (setLevel i active s)
      (if active then arrivesActive i (setLevel i active s) else arrivesInactive i (setLevel i active s)) ∧
      (if active then arrivesActive i (setLevel i active s) else arrivesInactive i (setLevel i active s)).seq.levels =
        (setLevel i active s).seq.levels ∧
      (if active then arrivesActive i (setLevel i active s) else arrivesInactive i (setLevel i active s)).seq.readings =
        (setLevel i active s).seq.readings := by
    cases active with
    | true => exact arrivesActive_still hset i
    | false => exact arrivesInactive_still hset i
  obtain ⟨hkeep, hlevels, hreadings⟩ := hall
  have hreact : arrive i active s =
      (if active then arrivesActive i (setLevel i active s) else arrivesInactive i (setLevel i active s)) :=
    react_still (hkeep.still hset).1
  rw [hreact]
  exact ⟨hkeeps.trans hkeep, hlevels, hreadings⟩

/-- The part with an input's sample taken, its level not yet changed. -/
def withReading (i : Input) (s : State) : State :=
  s.setSeq { s.seq with readings := s.seq.readings.set i (nowAt s i) }

theorem sampleInput_eq (s : State) (i : Input) : sampleInput s i =
    if nowAt s i = s.seq.readings.get i ∧ nowAt s i ≠ s.seq.levels.get i then arrive i (nowAt s i) (withReading i s)
    else withReading i s := rfl

/-- One sample of one input where nothing turns (02 R25). -/
theorem sampleInput_still {s : State} (h : Still s) (i : Input) : SampleKeeps s (sampleInput s i) ∧
    (∀ j, (sampleInput s i).seq.readings.get j = if j = i then nowAt s i else s.seq.readings.get j) ∧
    ∀ j, (sampleInput s i).seq.levels.get j =
      if j = i ∧ nowAt s i = s.seq.readings.get i then nowAt s i else s.seq.levels.get j := by
  have hread : SampleKeeps s (withReading i s) := ⟨rfl, rfl, rfl, rfl, rfl, rfl, rfl⟩
  obtain ⟨hkeep, hlevels, hreadings⟩ := arrive_still (hread.still h) i (nowAt s i)
  rw [sampleInput_eq]
  split
  next hchange =>
    refine ⟨hread.trans hkeep, fun j => ?_, fun j => ?_⟩
    · rw [hreadings]
      exact Inputs.get_set_ite ..
    · rw [hlevels, Inputs.get_set_ite]
      exact if_congr (by simp [hchange.1]) rfl rfl
  next hsame =>
    refine ⟨hread, fun j => Inputs.get_set_ite .., fun j => ?_⟩
    by_cases hj : j = i ∧ nowAt s i = s.seq.readings.get i
    · obtain ⟨rfl, hread⟩ := hj
      rw [if_pos ⟨rfl, hread⟩]
      exact (not_not.1 fun hne => hsame ⟨hread, hne⟩).symm
    · rw [if_neg hj]
      rfl

/-- One sample of each of some inputs where nothing turns. -/
theorem sampleList_still {xs : List Input} (hnodup : xs.Nodup) {s : State} (h : Still s) :
    SampleKeeps s (xs.foldl sampleInput s) ∧
    (∀ j, (xs.foldl sampleInput s).seq.readings.get j = if j ∈ xs then nowAt s j else s.seq.readings.get j) ∧
    ∀ j, (xs.foldl sampleInput s).seq.levels.get j =
      if j ∈ xs ∧ nowAt s j = s.seq.readings.get j then nowAt s j else s.seq.levels.get j := by
  induction xs generalizing s with
  | nil => exact ⟨.refl s, fun j => rfl, fun j => by simp⟩
  | cons x xs ih =>
    obtain ⟨hx, hxs⟩ := List.nodup_cons.1 hnodup
    obtain ⟨hkeep, hreadings, hlevels⟩ := sampleInput_still h x
    obtain ⟨hkeep', hreadings', hlevels'⟩ := ih hxs (hkeep.still h)
    refine ⟨hkeep.trans hkeep', fun j => ?_, fun j => ?_⟩
    · rw [List.foldl_cons, hreadings', hreadings, hkeep.nowAt]
      by_cases hj : j = x
      · subst hj
        simp [hx]
      · simp [hj]
    · rw [List.foldl_cons, hlevels', hreadings, hlevels, hkeep.nowAt]
      by_cases hj : j = x
      · subst hj
        simp [hx]
      · simp [hj]

theorem allInputs_complete : allInputs.Nodup ∧ ∀ i, i ∈ allInputs :=
  ⟨by decide, fun i => by cases i <;> decide⟩

theorem sampleInputs_still {s : State} (h : Still s) : SampleKeeps s (sampleInputs s) ∧
    ∀ i, (sampleInputs s).seq.readings.get i = nowAt s i ∧ (sampleInputs s).seq.levels.get i =
      if nowAt s i = s.seq.readings.get i then nowAt s i else s.seq.levels.get i := by
  have hlist := sampleList_still allInputs_complete.1 h
  simp only [allInputs_complete.2, if_true, true_and] at hlist
  obtain ⟨hkeep, hreadings, hlevels⟩ := hlist
  rw [sampleInputs]
  exact ⟨hkeep, fun i => ⟨hreadings i, hlevels i⟩⟩

/-! ### The rest of the millisecond, where nothing turns -/

/-- What the lamp supply's sample leaves alone while the volume is not SCANNING and no strobe runs. -/
theorem sampleSupply_still {s : State} (hvol : s.col.volState ≠ .scanning)
    (hstrobe : ∀ b, s.lamps.strobe.get b = none) :
    (sampleSupply s).seq = s.seq ∧ (sampleSupply s).chans = s.chans := by
  have hreturns : supplyReturns s = setSupply .good 0 s := react_still hvol
  have hcut (b : Side) (t : State) (ht : t.lamps.strobe = s.lamps.strobe) : cutStrobe b t = t :=
    if_neg (by rw [ht, hstrobe b]; exact nofun)
  have hlost : react (raise .lampSupply [slot (strobesRunning s)]
      (cutStrobe .right (cutStrobe .left (setSupply .low 0 s)))) =
      raise .lampSupply [slot (strobesRunning s)] (setSupply .low 0 s) := by
    rw [hcut .left (setSupply .low 0 s) rfl, hcut .right (setSupply .low 0 s) rfl]
    exact react_still hvol
  rw [sampleSupply]
  split
  · rw [goodSupply]
    split
    · exact ⟨rfl, rfl⟩
    · split
      · rw [hreturns]
        exact ⟨rfl, rfl⟩
      · exact ⟨rfl, rfl⟩
    · exact ⟨rfl, rfl⟩
  · rw [badSupply]
    split
    · exact ⟨rfl, rfl⟩
    · rw [hlost]
      exact ⟨rfl, rfl⟩
    · rw [hlost]
      exact ⟨rfl, rfl⟩

theorem runGates_off {s : State} (h : ∀ b, (s.chan b).state ≠ .gating) : onBoth runGate s = s := by
  have hoff (b : Side) : runGate b s = s := if_neg (h b)
  rw [onBoth, hoff, hoff]

theorem charge_seq (x : Target) (n : Nat) (s : State) : (charge x n s).seq = s.seq := by rw [charge_rest]

theorem tickBank_seq (b : Side) (s : State) : (tickBank b s).seq = s.seq := by
  rw [tickBank]
  split
  · cases inView s b with
    | none => rfl
    | some x =>
      dsimp only
      split
      · exact charge_seq ..
      · exact charge_seq ..
  · rfl

theorem runDose_seq (s : State) : (runDose s).seq = s.seq := by
  rw [runDose]
  split
  · exact (tickBank_seq _ _).trans (tickBank_seq _ _)
  · rfl

theorem runClock_seq (s : State) : (runClock s).seq = s.seq := by
  rw [runClock, clockSecond]
  split
  · split
    · rfl
    · rfl
  · rfl

theorem runStore_seq (s : State) : (runStore s).seq = s.seq := by
  rw [runStore]
  split <;> rfl

/-! ### The timers -/

/-- A channel after one millisecond of its frame timeout. -/
def Channel.timeRun (c : Channel) : Channel := { c with timeout := c.timeout.map (· - 1) }

/-- A port after one millisecond of its stall timer. -/
def Port.timeRun (p : Port) : Port :=
  { p with frame := p.frame.map fun f => { f with stallLeft := f.stallLeft - 1 } }

/-- The slots that a bank's scan has come to after ten more. -/
def slotsRun (s : State) (b : Side) : Nat := s.lamps.scanSlot.get b + 10

/-- A bank's strobe after the scans completed. -/
def strobeRun (s : State) (b : Side) : Option Strobe :=
  (s.lamps.strobe.get b).map fun z => { z with scans := z.scans - slotsRun s b / 6 }

theorem runFrameTimeout_on {b : Side} {s : State} (h : ∀ n, (s.chan b).timeout = some n → 2 ≤ n) :
    runFrameTimeout b s = s.setChan b (s.chan b).timeRun := by
  rw [runFrameTimeout, Channel.timeRun]
  cases htimeout : (s.chan b).timeout with
  | none =>
    have hsame : { s.chan b with timeout := none } = s.chan b := by rw [← htimeout]
    exact (State.setChan_chan s b).symm.trans (congrArg (s.setChan b) hsame.symm)
  | some n =>
    have hn := h n htimeout
    exact if_neg (by omega)

theorem runStall_on {b : Side} {s : State} (h : ∀ f, (s.port b).frame = some f → 2 ≤ f.stallLeft) :
    runStall b s = s.setPort b (s.port b).timeRun := by
  rw [runStall, Port.timeRun]
  cases hframe : (s.port b).frame with
  | none =>
    have hsame : { s.port b with frame := none } = s.port b := by rw [← hframe]
    exact (State.setPort_port s b).symm.trans (congrArg (s.setPort b) hsame.symm)
  | some f =>
    have hf := h f hframe
    exact if_neg (by omega)

/-- A bank's scan moved on by ten slots. -/
def scanRun (b : Side) (s : State) : State :=
  { s with lamps := { s.lamps with
      strobe := s.lamps.strobe.set b (strobeRun s b)
      scanSlot := s.lamps.scanSlot.set b (slotsRun s b % 6)
      slotDuty := s.lamps.slotDuty.set b (cappedPreview s (firstChannel b + slotsRun s b % 6)) } }

theorem runScans_on {b : Side} {s : State}
    (h : ∀ z, s.lamps.strobe.get b = some z → (s.lamps.scanSlot.get b + 10) / 6 < z.scans) :
    runScans b s = scanRun b s := by
  rw [runScans, scanRun, strobeRun]
  cases hstrobe : s.lamps.strobe.get b with
  | none =>
    have hsame : s.lamps.strobe.set b none = s.lamps.strobe := by rw [← hstrobe]; cases b <;> rfl
    rw [Option.map_none, hsame]
    rfl
  | some z =>
    have hz := h z hstrobe
    exact if_neg (by omega)

/-- The sequencer after one millisecond of its time limits. -/
def limitsRun (q : Sequencer) : Sequencer :=
  { q with
    motionLeft := if q.state.motion = none then q.motionLeft else q.motionLeft - 1
    manualLeft := if q.manual = none then q.manualLeft else q.manualLeft - 1 }

theorem runLimits_on {s : State} (hmotion : s.seq.state.motion ≠ none → 2 ≤ s.seq.motionLeft)
    (hmanual : s.seq.manual ≠ none → 2 ≤ s.seq.manualLeft) : runManual (runMotion s) = s.setSeq (limitsRun s.seq) := by
  have hrun : runMotion s = s.setSeq { s.seq with
      motionLeft := if s.seq.state.motion = none then s.seq.motionLeft else s.seq.motionLeft - 1 } := by
    rw [runMotion]
    cases hm : s.seq.state.motion with
    | none => rfl
    | some m =>
      have hleft := hmotion (hm ▸ nofun)
      exact if_neg (by omega)
  rw [hrun, runManual, limitsRun]
  cases hm : s.seq.manual with
  | none => simp only [State.setSeq, hm, if_true]
  | some m =>
    have hleft := hmanual (hm ▸ nofun)
    simp only [State.setSeq, hm, reduceCtorEq, if_false]
    exact if_neg (by omega)

/-- The lamps after one millisecond of the dark delay. -/
def darkRun (l : Lamps) : Lamps :=
  { l with darkLeft := l.darkLeft.map (· - 1), darkExpired := l.darkExpired || l.darkLeft == some 1 }

theorem darkRun_stopped {l : Lamps} (h : l.darkLeft = none ∨ l.darkLeft = some 0) : darkRun l = l := by
  cases l
  rcases h with rfl | rfl <;> simp [darkRun]

theorem runDark_eq (s : State) : runDark s = { s with lamps := darkRun s.lamps } := by
  rcases hleft : s.lamps.darkLeft with _ | _ | _ | n
  · rw [darkRun_stopped (.inl hleft)]
    simp only [runDark, hleft]
  · rw [darkRun_stopped (.inr hleft)]
    simp only [runDark, hleft]
  · simp [runDark, hleft, darkExpiry, darkRun]
  · simp [runDark, hleft, darkRun]

/-! ### A millisecond in which no timer ends -/

/-- The part after its timers have run for a millisecond. -/
def timersRun (s : State) : State :=
  { s with
    seq := limitsRun s.seq
    lamps := { darkRun s.lamps with
      strobe := ⟨strobeRun s .left, strobeRun s .right⟩
      scanSlot := ⟨slotsRun s .left % 6, slotsRun s .right % 6⟩
      slotDuty := ⟨cappedPreview s (firstChannel .left + slotsRun s .left % 6),
        cappedPreview s (firstChannel .right + slotsRun s .right % 6)⟩ }
    chans := ⟨s.chans.left.timeRun, s.chans.right.timeRun⟩
    ports := ⟨s.ports.left.timeRun, s.ports.right.timeRun⟩ }

theorem runFrameTimeouts_on {s : State} (h : ∀ b n, (s.chan b).timeout = some n → 2 ≤ n) : onBoth runFrameTimeout s =
    { s with chans := ⟨s.chans.left.timeRun, s.chans.right.timeRun⟩ } := by
  have hright := runFrameTimeout_on (b := .right) (s := s.setChan .left (s.chan .left).timeRun) (h .right)
  rw [onBoth, runFrameTimeout_on (h .left), hright]
  rfl

theorem runStalls_on {s : State} (h : ∀ b f, (s.port b).frame = some f → 2 ≤ f.stallLeft) : onBoth runStall s =
    { s with ports := ⟨s.ports.left.timeRun, s.ports.right.timeRun⟩ } := by
  have hright := runStall_on (b := .right) (s := s.setPort .left (s.port .left).timeRun) (h .right)
  rw [onBoth, runStall_on (h .left), hright]
  rfl

theorem runBothScans_on {s : State}
    (h : ∀ b z, s.lamps.strobe.get b = some z → (s.lamps.scanSlot.get b + 10) / 6 < z.scans) :
    onBoth runScans s = scanRun .right (scanRun .left s) := by
  rw [onBoth, runScans_on (h .left), runScans_on (b := .right) (s := scanRun .left s) (h .right)]

theorem runTimers_on {s : State} (hmotion : s.seq.state.motion ≠ none → 2 ≤ s.seq.motionLeft)
    (hmanual : s.seq.manual ≠ none → 2 ≤ s.seq.manualLeft)
    (htimeout : ∀ b n, (s.chan b).timeout = some n → 2 ≤ n)
    (hstall : ∀ b f, (s.port b).frame = some f → 2 ≤ f.stallLeft)
    (hscans : ∀ b z, s.lamps.strobe.get b = some z → (s.lamps.scanSlot.get b + 10) / 6 < z.scans) :
    runTimers s = timersRun s := by
  rw [runTimers, runLimits_on hmotion hmanual, runDark_eq, runFrameTimeouts_on (by exact htimeout),
    runStalls_on (by exact hstall), runBothScans_on (by exact hscans)]
  rfl

/-- The lamps after a sample of the supply that changes no state. -/
def recoveryRun (l : Lamps) : Lamps :=
  { l with recovery := if l.supply = .recovering then l.recovery + 1 else l.recovery }

theorem recoveryRun_stopped {l : Lamps} (h : l.supply ≠ .recovering) : recoveryRun l = l := by
  rw [recoveryRun, if_neg h]

theorem sampleSupply_on {s : State} (h : if s.pins.supplyGood then s.lamps.supply ≠ .low ∧
      (s.lamps.supply = .recovering → s.lamps.recovery < 499) else s.lamps.supply = .low) :
    sampleSupply s = { s with lamps := recoveryRun s.lamps } := by
  rw [sampleSupply]
  cases hgood : s.pins.supplyGood with
  | true =>
    simp only [hgood, if_true] at h
    cases hsupply : s.lamps.supply with
    | low => exact absurd hsupply h.1
    | recovering =>
      have hshort : ¬500 ≤ s.lamps.recovery + 1 := by
        have := h.2 hsupply
        omega
      simp only [goodSupply, hsupply, if_true, hshort, if_false, setSupply, recoveryRun]
    | good =>
      rw [recoveryRun_stopped (hsupply ▸ nofun)]
      simp only [goodSupply, hsupply, if_true]
  | false =>
    simp only [hgood, Bool.false_eq_true, if_false] at h
    rw [recoveryRun_stopped (h ▸ nofun)]
    simp only [badSupply, h, Bool.false_eq_true, if_false]

/-- The volume clock after a millisecond. -/
def clockRun (t : Tally) : Tally :=
  if t.clockRuns = false then t
  else if t.clockMs < 999 then { t with clockMs := t.clockMs + 1 }
  else { t with clock := if t.clock < 2 ^ 32 - 1 then t.clock + 1 else t.clock, clockMs := 0 }

theorem runClock_eq (s : State) : runClock s = { s with tally := clockRun s.tally } := by
  rw [runClock, clockRun]
  cases hruns : s.tally.clockRuns with
  | false => rfl
  | true =>
    by_cases hms : s.tally.clockMs < 999
    · simp [hruns, hms, show ¬1000 ≤ s.tally.clockMs + 1 by omega]
    · simp [hruns, hms, show 1000 ≤ s.tally.clockMs + 1 by omega, clockSecond, countUp]

/-- The settings store after a millisecond. -/
def storeRun (q : Store) : Store := if q.state = .idle then q else { q with elapsed := q.elapsed + 1 }

theorem runStore_eq (s : State) : runStore s = { s with store := storeRun s.store } := by
  cases hstate : s.store.state <;> simp [runStore, storeRun, hstate]

theorem runDose_on {s : State} (h : s.dose.tickMs < 99) :
    runDose s = { s with dose := { s.dose with tickMs := s.dose.tickMs + 1 } } := if_neg (by omega)

/-! ### The statement -/

theorem step_empty {s : State} (h : s.pending = []) : step s = .next (tick s) := by
  simp only [step, h]

theorem tick_held {s : State} (h : s.start = .held) : tick s = s := if_pos h

/-- One millisecond from its timers on, while no reset is held. -/
theorem tick_from {s t : State} (hstart : s.start ≠ .held) (h : runTimers s = t) : tick s =
    idleBoundary (runStore (runClock (runDose (onBoth runGate (sampleSupply (sampleInputs t)))))) := by
  rw [← h]
  exact if_neg hstart

/-- A channel's timer leaves its state. -/
theorem timersRun_state (s : State) (b : Side) : ((timersRun s).chan b).state = (s.chan b).state := by cases b <;> rfl

/-- A millisecond in which nothing arrives and no timer ends (log 2). -/
theorem tick_quiet {s : State} (hstart : s.start ≠ .held)
    (hinputs : ∀ i, s.seq.readings.get i = nowAt s i ∧ s.seq.levels.get i = nowAt s i)
    (hsupply : if s.pins.supplyGood then s.lamps.supply ≠ .low ∧
      (s.lamps.supply = .recovering → s.lamps.recovery < 499) else s.lamps.supply = .low)
    (htimers : runTimers s = timersRun s) (hgating : ∀ b, (s.chan b).state ≠ .gating) (hdose : s.dose.tickMs < 99) :
    tick s = idleBoundary { timersRun s with
      lamps := recoveryRun (timersRun s).lamps, dose := { s.dose with tickMs := s.dose.tickMs + 1 }
      tally := clockRun s.tally, store := storeRun s.store } := by
  have hsampled : sampleInputs (timersRun s) = timersRun s := sampleInputs_same (s := timersRun s) hinputs
  have hgates : onBoth runGate { timersRun s with lamps := recoveryRun (timersRun s).lamps } = _ :=
    runGates_off fun b => (timersRun_state s b).symm ▸ hgating b
  rw [tick_from hstart htimers, hsampled, sampleSupply_on (s := timersRun s) hsupply, hgates,
    runDose_on (by exact hdose), runClock_eq, runStore_eq]
  rfl

/-- One sample of each input of a part that turns nothing (02 R25). -/
theorem tick_still {s : State} (hstart : s.start ≠ .held) (hstill : Still s) (htimers : runTimers s = timersRun s)
    (hgating : ∀ b, (s.chan b).state ≠ .gating) (hstrobe : ∀ b, s.lamps.strobe.get b = none) (i : Input) :
    (tick s).seq.readings.get i = nowAt s i ∧ (tick s).seq.levels.get i =
      if nowAt s i = s.seq.readings.get i then nowAt s i else s.seq.levels.get i := by
  obtain ⟨hkeep, hsampled⟩ := sampleInputs_still (s := timersRun s) hstill
  have hnone (b : Side) : (sampleInputs (timersRun s)).lamps.strobe.get b = none := by
    rw [hkeep.strobe]
    have hrun : strobeRun s b = none := by rw [strobeRun, hstrobe b]; rfl
    cases b <;> exact hrun
  obtain ⟨hseq, hchans⟩ := sampleSupply_still (hkeep.still hstill).1 hnone
  have hgates : onBoth runGate (sampleSupply (sampleInputs (timersRun s))) =
      sampleSupply (sampleInputs (timersRun s)) := runGates_off fun b => by
    rw [State.chan, hchans, hkeep.chans]
    exact (timersRun_state s b).symm ▸ hgating b
  rw [tick_from hstart htimers, idleBoundary_seq, runStore_seq, runClock_seq, runDose_seq, hgates, hseq]
  exact hsampled i

/-- Settles O2. -/
theorem stepWithoutCommand : Obligations.StepWithoutCommand := by
  intro s hpending
  have hstep := step_empty hpending
  refine ⟨hstep, fun hheld => hstep.trans (congrArg _ (tick_held hheld)),
    fun hstart hinputs hsupply hmotion hmanual hbanks hdose => hstep.trans (congrArg _ ?_),
    fun hstart hvol hmotion hmanual hbanks => ⟨tick s, hstep, ?_⟩⟩
  · have htimers := runTimers_on hmotion hmanual (fun b => (hbanks b).2.1) (fun b => (hbanks b).2.2.1)
      (fun b => (hbanks b).2.2.2)
    exact tick_quiet hstart hinputs hsupply htimers (fun b => (hbanks b).1) hdose
  · have htimers : runTimers s = timersRun s := by
      refine runTimers_on (fun h => absurd hmotion h) (fun h => absurd hmanual h) (fun b n h => ?_) (fun b f h => ?_)
        (fun b z h => ?_)
      · exact nomatch (hbanks b).2.1.symm.trans h
      · exact nomatch (hbanks b).2.2.1.symm.trans h
      · exact nomatch (hbanks b).2.2.2.symm.trans h
    exact tick_still hstart ⟨hvol, hmotion, hmanual⟩ htimers (fun b => (hbanks b).1) (fun b => (hbanks b).2.2.2)

end Sys2Proof.Machine
end
